-- ==== Sys2Proof/Word.lean ====
section
/-! DEFINITION. The widths of `spec/` (R5): the words, halfwords and bytes the instructions compute on, and the
4-bit register numbers of their encodings. -/

namespace Sys2Proof

/-- 8 bits: an "8bit snippet", and the unit of the address space (R10, R40). -/
abbrev Byte := BitVec 8

/-- 16 bits: the bottom or the top half of a word (R10). -/
abbrev Half := BitVec 16

/-- 32 bits: a general register, an instruction, an address (R5, R20, R23, R50). -/
abbrev Word := BitVec 32

/-- 64 bits: the accumulator `RdHi:RdLo` of SMLALD and SMLSLD (R30). -/
abbrev Dword := BitVec 64

/-- A 4-bit register number, 0 to 15, as an instruction holds it (R5, R20). -/
abbrev RegNum := BitVec 4

end Sys2Proof
end

