-- ==== Sys2Proof/Machine/Primitives.lean ====
section
/-! DEFINITION. The pseudocode primitives of R7 and R8: slices, truncation, extension, rotation, shifts and clamping. `UInt`
and `SInt` of R8 are `BitVec.toNat` and `BitVec.toInt`. Arithmetic is done on unbounded integers and becomes a bit vector only
through `trunc` (R8, R11). -/

namespace Sys2Proof.Machine

/-- `trunc_w(n)` (R8): the `w`-bit vector congruent to the integer `n` modulo `2^w`. -/
def trunc (w : Nat) (n : Int) : BitVec w := BitVec.ofInt w n

/-- The bottom halfword, `v[15:0]` (R7, R10). -/
def lo16 (v : Word) : Half := v.extractLsb' 0 16

/-- The top halfword, `v[31:16]` (R7, R10). -/
def hi16 (v : Word) : Half := v.extractLsb' 16 16

/-- Byte `i` of a word, `v[8i+7:8i]` (R10). -/
def byteAt (v : Word) (i : Nat) : Byte := v.extractLsb' (8 * i) 8

/-- Two halfwords, the first the more significant: `hi : lo` (R8). -/
def halves (hi lo : Half) : Word := hi ++ lo

/-- Four bytes, the first the most significant: `b3 : b2 : b1 : b0` (R8). -/
def bytes (b3 b2 b1 b0 : Byte) : Word := b3 ++ b2 ++ b1 ++ b0

/-- `ROR32(v, n)` (R8), `0 <= n <= 31`. -/
def ror32 (v : Word) (n : Nat) : Word := v.rotateRight n

/-- `LSL32(v, n)` (R8): `trunc_32(UInt(v) * 2^n)`. -/
def lsl32 (v : Word) (n : Nat) : Word := trunc 32 ((v.toNat : Int) * 2 ^ n)

/-- `ASR32(v, n)` (R8): `trunc_32(floor(SInt(v) / 2^n))`; the divisor is positive, so Lean's `/` on integers is the floor. -/
def asr32 (v : Word) (n : Nat) : Word := trunc 32 (v.toInt / 2 ^ n)

/-- `n` clamped to `lo .. hi`. -/
def clamp (lo hi n : Int) : Int := if n < lo then lo else if hi < n then hi else n

/-- `SignedSat(n, w)` (R8): `n` clamped to `-2^(w-1) .. 2^(w-1)-1`, for `1 <= w`. -/
def signedSat (n : Int) (w : Nat) : Int := clamp (-(2 ^ (w - 1))) (2 ^ (w - 1) - 1) n

/-- `UnsignedSat(n, w)` (R8): `n` clamped to `0 .. 2^w - 1`. -/
def unsignedSat (n : Int) (w : Nat) : Int := clamp 0 (2 ^ w - 1) n

/-- `floor(n / 2)` (R144, R174): Lean's `/` on integers by a positive divisor is the floor. -/
def halve (n : Int) : Int := n / 2

/-- The top word of a 64-bit result, `trunc_64(n)[63:32]` (R212 to R214). -/
def top32 (n : Int) : Word := (trunc 64 n).extractLsb' 32 32

end Sys2Proof.Machine
end

