-- ==== Sys2Proof/Config.lean ====
section
/-! DEFINITION. The parameters of the machine (R6, `spec/00_scope.md`) that have more than one value. They are plain data
held in the state (`State.cfg`) and nothing writes them: a statement about every state is a statement about every reading the
spec keeps. `UNPREDICTABLE_POLICY` and `INTERRUPTS` have one value each and are no fields (log entries 9 and 10); `ENTRY_PC`
and `PROGRAM` are fields of the state itself. -/

namespace Sys2Proof

/-- `Q_DUAL_SUB` (R209, D20): which subtracting dual multiply can set Q. -/
inductive QDualSub where
  /-- SMLSD sets Q on 32-bit overflow, SMLSLD never writes it (the default). -/
  | armArm
  /-- The source's sentence taken literally: SMLSLD sets Q on 64-bit overflow, SMLSD never writes it. -/
  | sourceLiteral
deriving DecidableEq, Repr

/-- `SMMLS_FORM` (R214, D21): the exact arithmetic of SMMLS. -/
inductive SmmlsForm where
  /-- The subtraction is done on 64 bits and its top word taken (the default). -/
  | wide64
  /-- The product's top word is taken first and then subtracted. -/
  | top32ThenSub
deriving DecidableEq, Repr

/-- `USAT_BOUND` (R222, R224, D23): the upper bound of USAT and USAT16. -/
inductive UsatBound where
  /-- Field `f` clamps to `0 .. 2^f - 1` (the default). -/
  | twoPowField
  /-- Field `f` clamps to `0 .. 2^(f+1) - 1`. -/
  | twoPowFieldPlus1
deriving DecidableEq, Repr

/-- The parameters of R6. Log entry 1. -/
structure Config where
  /-- `ARCH_VERSION`: the instructions exist only from version 6 on (R1, R321, D29). -/
  archVersion : Nat
  /-- `FETCH_BIG_ENDIAN`: the byte order of instruction fetch (R41, D2). -/
  fetchBigEndian : Bool
  /-- `Q_DUAL_SUB` (R209). -/
  qDualSub : QDualSub
  /-- `SMMLS_FORM` (R214). -/
  smmlsForm : SmmlsForm
  /-- `USAT_BOUND` (R222, R224). -/
  usatBound : UsatBound
deriving DecidableEq, Repr

/-- Every parameter at the default R6 gives it. -/
def Config.default : Config where
  archVersion := 6
  fetchBigEndian := false
  qDualSub := .armArm
  smmlsForm := .wide64
  usatBound := .twoPowField

end Sys2Proof
end

