-- ==== Sys2Proof/Machine/State.lean ====
section
/-! DEFINITION. The state of the machine, as plain data: all the state `spec/` names (R20 to R31, R40, R320) and the
parameters of R6. Why a run stops is `Fault` and `Refusal`. -/

namespace Sys2Proof.Machine

/-- The number of a general register that exists: R0 to R14 (R20, R21). -/
abbrev GPR := Fin 15

/-- The instruction memory: (address, byte) cells with rising addresses; an address not listed is unmapped (R40).
Log entry 6. -/
abbrev Memory := List Host.Cell

/-- The CPSR as a record of named fields (R24, D6). The other CPSR fields are not modelled (R31; log entry 13). -/
structure Cpsr where
  /-- Negative (R27): read by conditions, written by nothing. -/
  n : Bool
  /-- Zero (R27). -/
  z : Bool
  /-- Carry (R27). -/
  c : Bool
  /-- Overflow (R27). -/
  v : Bool
  /-- The sticky saturation flag (R26). -/
  q : Bool
  /-- `GE[3:0]` (R25): written by the S- and U-prefixed parallel instructions, read by SEL. -/
  ge : BitVec 4
deriving DecidableEq, Repr

/-- The whole state of the machine. -/
structure State where
  /-- R0 to R14 (R20). -/
  regs : Vector Word 15
  /-- The address of the instruction being executed (R23). -/
  pc : Word
  /-- The flags (R24 to R27). -/
  cpsr : Cpsr
  /-- The instruction memory: the bytes of PROGRAM (R40, R48). -/
  mem : Memory
  /-- `ENTRY_PC` (R6, R40). `END_PC` is derived: `State.endPc`. -/
  entryPc : Word
  /-- The parameters of R6 (log entry 1). -/
  cfg : Config
deriving DecidableEq, Repr

/-- Why the machine stops although no word is refused. -/
inductive Fault where
  /-- Raised by `step` alone, when `pc = END_PC`: the run is over and there is no next instruction (R322; log entry 5).
  Safe: the spec gives such a state no step. -/
  | endOfRun
deriving DecidableEq, Repr

/-- Why a word is refused: it has no successor state (R303). -/
inductive Refusal where
  /-- An instruction that has no meaning in this model. Raised by no arm: all 69 have their meaning. Safe. -/
  | notModelled (mnemonic : String)
  /-- Raised by `step`: `pc` is outside the program text, or not a multiple of 4 (R42, R303). Safe. -/
  | fetchOutOfProgram
  /-- Raised by `step`: bits 31-28 of the word are `0b1111` (R54). Safe. -/
  | unconditionalSpace
  /-- Raised by `step`: the word matches no row of the opcode table (R57), or the architecture version is below 6
  (U11; log entry 8). Safe. -/
  | notInOpcodeTable
  /-- Raised by every meaning: a register field the instruction uses holds 15, which is UNPREDICTABLE (R53). Safe. -/
  | unpredictableR15
  /-- Raised by the meanings of SMLALD and SMLSLD: `RdHi = RdLo`, which is UNPREDICTABLE (R203). Safe. -/
  | unpredictableRdHiRdLo
deriving DecidableEq, Repr

/-- What an instruction or a step answers. -/
abbrev Result := Host.Outcome State Fault Refusal

/-- The machine right after reset. The spec gives no value (R31, R320): every register and flag holds the zero that log
entries 2 and 3 name, `pc = ENTRY_PC` is the zero of log entry 4, no program is placed, and each parameter has the default
R6 gives it. No statement rests on these values. -/
def State.reset : State where
  regs := Vector.replicate 15 0
  pc := 0
  cpsr := ⟨false, false, false, false, false, 0⟩
  mem := []
  entryPc := 0
  cfg := Config.default

end Sys2Proof.Machine
end

