-- ==== Sys2Proof/Syntax.lean ====
section
/-! DEFINITION. The instructions (R56): one constructor per row of `spec/opcode_table.json`, each with its condition first
and then its operands in the order of the assembler syntax (R59). Register operands are the 4-bit numbers of the encoding;
which of them may be 15 is said by `Instr.wellFormed` (R53). -/

namespace Sys2Proof

/-- The fifteen conditions of R29. The value `0b1111` of the field is not a condition (R54). -/
inductive Cond where
  | eq | ne | cs | cc | mi | pl | vs | vc | hi | ls | ge | lt | gt | le | al
deriving DecidableEq, Repr

/-- Bit 6 of format SAT: LSL or ASR (R51, R58). -/
inductive ShiftType where
  | lsl | asr
deriving DecidableEq, Repr

/-- The 69 mnemonics of the opcode table, in the table's order (R56). -/
inductive Mnemonic where
  | sxtab16 | sxtab | sxtah | uxtab16 | uxtab | uxtah | sxtb16 | sxtb | sxth | uxtb16 | uxtb | uxth
  | sel
  | sadd16 | saddsubx | ssubaddx | ssub16 | sadd8 | ssub8 | qadd16 | qaddsubx | qsubaddx | qsub16 | qadd8 | qsub8
  | shadd16 | shaddsubx | shsubaddx | shsub16 | shadd8 | shsub8 | uadd16 | uaddsubx | usubaddx | usub16 | uadd8
  | usub8 | uqadd16 | uqaddsubx | uqsubaddx | uqsub16 | uqadd8 | uqsub8 | uhadd16 | uhaddsubx | uhsubaddx | uhsub16
  | uhadd8 | uhsub8
  | smuad | smlad | smusd | smlsd | smlald | smlsld | smmul | smmla | smmls
  | ssat | usat
  | ssat16 | usat16
  | usad8 | usada8
  | pkhbt | pkhtb
  | rev | rev16 | revsh
deriving DecidableEq, Repr

/-- An instruction of the opcode table. `c` is the condition; `rot`, `shiftImm`, `satImm`, `sh`, `x` (exchange) and `r`
(rounded) are the fields of R51 and R58 as they stand in the word. -/
inductive Instr where
  -- Extends (R100 to R113): format EXT
  /-- `SXTAB16(cond) Rd, Rn, Rm (, ROR #imm)` (R102). -/
  | sxtab16 (c : Cond) (rd rn rm : RegNum) (rot : BitVec 2)
  /-- `SXTAB(cond) Rd, Rn, Rm (, ROR #imm)` (R103). -/
  | sxtab (c : Cond) (rd rn rm : RegNum) (rot : BitVec 2)
  /-- `SXTAH(cond) Rd, Rn, Rm (, ROR #imm)` (R104). -/
  | sxtah (c : Cond) (rd rn rm : RegNum) (rot : BitVec 2)
  /-- `UXTAB16(cond) Rd, Rn, Rm (, ROR #imm)` (R105). -/
  | uxtab16 (c : Cond) (rd rn rm : RegNum) (rot : BitVec 2)
  /-- `UXTAB(cond) Rd, Rn, Rm (, ROR #imm)` (R106). -/
  | uxtab (c : Cond) (rd rn rm : RegNum) (rot : BitVec 2)
  /-- `UXTAH(cond) Rd, Rn, Rm (, ROR #imm)` (R107). -/
  | uxtah (c : Cond) (rd rn rm : RegNum) (rot : BitVec 2)
  /-- `SXTB16(cond) Rd, Rm (, ROR #imm)` (R108). -/
  | sxtb16 (c : Cond) (rd rm : RegNum) (rot : BitVec 2)
  /-- `SXTB(cond) Rd, Rm (, ROR #imm)` (R109). -/
  | sxtb (c : Cond) (rd rm : RegNum) (rot : BitVec 2)
  /-- `SXTH(cond) Rd, Rm (, ROR #imm)` (R110). -/
  | sxth (c : Cond) (rd rm : RegNum) (rot : BitVec 2)
  /-- `UXTB16(cond) Rd, Rm (, ROR #imm)` (R111). -/
  | uxtb16 (c : Cond) (rd rm : RegNum) (rot : BitVec 2)
  /-- `UXTB(cond) Rd, Rm (, ROR #imm)` (R112). -/
  | uxtb (c : Cond) (rd rm : RegNum) (rot : BitVec 2)
  /-- `UXTH(cond) Rd, Rm (, ROR #imm)` (R113). -/
  | uxth (c : Cond) (rd rm : RegNum) (rot : BitVec 2)
  -- Select bytes (R120): format SEL
  /-- `SEL(cond) Rd, Rn, Rm` (R120). -/
  | sel (c : Cond) (rd rn rm : RegNum)
  -- Parallel add/subtract (R130 to R149, R160 to R179): format PAS
  /-- `SADD16(cond) Rd, Rn, Rm` (R132). -/
  | sadd16 (c : Cond) (rd rn rm : RegNum)
  /-- `SADDSUBX(cond) Rd, Rn, Rm` (R133). -/
  | saddsubx (c : Cond) (rd rn rm : RegNum)
  /-- `SSUBADDX(cond) Rd, Rn, Rm` (R134). -/
  | ssubaddx (c : Cond) (rd rn rm : RegNum)
  /-- `SSUB16(cond) Rd, Rn, Rm` (R135). -/
  | ssub16 (c : Cond) (rd rn rm : RegNum)
  /-- `SADD8(cond) Rd, Rn, Rm` (R136). -/
  | sadd8 (c : Cond) (rd rn rm : RegNum)
  /-- `SSUB8(cond) Rd, Rn, Rm` (R137). -/
  | ssub8 (c : Cond) (rd rn rm : RegNum)
  /-- `QADD16(cond) Rd, Rn, Rm` (R138). -/
  | qadd16 (c : Cond) (rd rn rm : RegNum)
  /-- `QADDSUBX(cond) Rd, Rn, Rm` (R139). -/
  | qaddsubx (c : Cond) (rd rn rm : RegNum)
  /-- `QSUBADDX(cond) Rd, Rn, Rm` (R140). -/
  | qsubaddx (c : Cond) (rd rn rm : RegNum)
  /-- `QSUB16(cond) Rd, Rn, Rm` (R141). -/
  | qsub16 (c : Cond) (rd rn rm : RegNum)
  /-- `QADD8(cond) Rd, Rn, Rm` (R142). -/
  | qadd8 (c : Cond) (rd rn rm : RegNum)
  /-- `QSUB8(cond) Rd, Rn, Rm` (R143). -/
  | qsub8 (c : Cond) (rd rn rm : RegNum)
  /-- `SHADD16(cond) Rd, Rn, Rm` (R144). -/
  | shadd16 (c : Cond) (rd rn rm : RegNum)
  /-- `SHADDSUBX(cond) Rd, Rn, Rm` (R145). -/
  | shaddsubx (c : Cond) (rd rn rm : RegNum)
  /-- `SHSUBADDX(cond) Rd, Rn, Rm` (R146). -/
  | shsubaddx (c : Cond) (rd rn rm : RegNum)
  /-- `SHSUB16(cond) Rd, Rn, Rm` (R147). -/
  | shsub16 (c : Cond) (rd rn rm : RegNum)
  /-- `SHADD8(cond) Rd, Rn, Rm` (R148). -/
  | shadd8 (c : Cond) (rd rn rm : RegNum)
  /-- `SHSUB8(cond) Rd, Rn, Rm` (R149). -/
  | shsub8 (c : Cond) (rd rn rm : RegNum)
  /-- `UADD16(cond) Rd, Rn, Rm` (R162). -/
  | uadd16 (c : Cond) (rd rn rm : RegNum)
  /-- `UADDSUBX(cond) Rd, Rn, Rm` (R163). -/
  | uaddsubx (c : Cond) (rd rn rm : RegNum)
  /-- `USUBADDX(cond) Rd, Rn, Rm` (R164). -/
  | usubaddx (c : Cond) (rd rn rm : RegNum)
  /-- `USUB16(cond) Rd, Rn, Rm` (R165). -/
  | usub16 (c : Cond) (rd rn rm : RegNum)
  /-- `UADD8(cond) Rd, Rn, Rm` (R166). -/
  | uadd8 (c : Cond) (rd rn rm : RegNum)
  /-- `USUB8(cond) Rd, Rn, Rm` (R167). -/
  | usub8 (c : Cond) (rd rn rm : RegNum)
  /-- `UQADD16(cond) Rd, Rn, Rm` (R168). -/
  | uqadd16 (c : Cond) (rd rn rm : RegNum)
  /-- `UQADDSUBX(cond) Rd, Rn, Rm` (R169). -/
  | uqaddsubx (c : Cond) (rd rn rm : RegNum)
  /-- `UQSUBADDX(cond) Rd, Rn, Rm` (R170). -/
  | uqsubaddx (c : Cond) (rd rn rm : RegNum)
  /-- `UQSUB16(cond) Rd, Rn, Rm` (R171). -/
  | uqsub16 (c : Cond) (rd rn rm : RegNum)
  /-- `UQADD8(cond) Rd, Rn, Rm` (R172). -/
  | uqadd8 (c : Cond) (rd rn rm : RegNum)
  /-- `UQSUB8(cond) Rd, Rn, Rm` (R173). -/
  | uqsub8 (c : Cond) (rd rn rm : RegNum)
  /-- `UHADD16(cond) Rd, Rn, Rm` (R174). -/
  | uhadd16 (c : Cond) (rd rn rm : RegNum)
  /-- `UHADDSUBX(cond) Rd, Rn, Rm` (R175). -/
  | uhaddsubx (c : Cond) (rd rn rm : RegNum)
  /-- `UHSUBADDX(cond) Rd, Rn, Rm` (R176). -/
  | uhsubaddx (c : Cond) (rd rn rm : RegNum)
  /-- `UHSUB16(cond) Rd, Rn, Rm` (R177). -/
  | uhsub16 (c : Cond) (rd rn rm : RegNum)
  /-- `UHADD8(cond) Rd, Rn, Rm` (R178). -/
  | uhadd8 (c : Cond) (rd rn rm : RegNum)
  /-- `UHSUB8(cond) Rd, Rn, Rm` (R179). -/
  | uhsub8 (c : Cond) (rd rn rm : RegNum)
  -- Multiplies (R200 to R214): format MUL
  /-- `SMUAD(X)(cond) Rd, Rm, Rs` (R204). -/
  | smuad (c : Cond) (x : Bool) (rd rm rs : RegNum)
  /-- `SMLAD(X)(cond) Rd, Rm, Rs, Rn` (R205). -/
  | smlad (c : Cond) (x : Bool) (rd rm rs rn : RegNum)
  /-- `SMUSD(X)(cond) Rd, Rm, Rs` (R206). -/
  | smusd (c : Cond) (x : Bool) (rd rm rs : RegNum)
  /-- `SMLSD(X)(cond) Rd, Rm, Rs, Rn` (R207). -/
  | smlsd (c : Cond) (x : Bool) (rd rm rs rn : RegNum)
  /-- `SMLALD(X)(cond) RdLo, RdHi, Rm, Rs` (R210). -/
  | smlald (c : Cond) (x : Bool) (rdLo rdHi rm rs : RegNum)
  /-- `SMLSLD(X)(cond) RdLo, RdHi, Rm, Rs` (R211). -/
  | smlsld (c : Cond) (x : Bool) (rdLo rdHi rm rs : RegNum)
  /-- `SMMUL(R)(cond) Rd, Rm, Rs` (R212). -/
  | smmul (c : Cond) (r : Bool) (rd rm rs : RegNum)
  /-- `SMMLA(R)(cond) Rd, Rm, Rs, Rn` (R213). -/
  | smmla (c : Cond) (r : Bool) (rd rm rs rn : RegNum)
  /-- `SMMLS(R)(cond) Rd, Rm, Rs, Rn` (R214). -/
  | smmls (c : Cond) (r : Bool) (rd rm rs rn : RegNum)
  -- Saturates (R220 to R222): format SAT
  /-- `SSAT(cond) Rd, #range, Rm (, LSL/ASR #imm)` (R221). -/
  | ssat (c : Cond) (rd : RegNum) (satImm : BitVec 5) (rm : RegNum) (sh : ShiftType) (shiftImm : BitVec 5)
  /-- `USAT(cond) Rd, #range, Rm (, LSL/ASR #imm)` (R222). -/
  | usat (c : Cond) (rd : RegNum) (satImm : BitVec 5) (rm : RegNum) (sh : ShiftType) (shiftImm : BitVec 5)
  -- Halfword saturates (R223, R224): format SAT16
  /-- `SSAT16(cond) Rd, #range, Rm` (R223). -/
  | ssat16 (c : Cond) (rd : RegNum) (satImm : BitVec 4) (rm : RegNum)
  /-- `USAT16(cond) Rd, #range, Rm` (R224). -/
  | usat16 (c : Cond) (rd : RegNum) (satImm : BitVec 4) (rm : RegNum)
  -- Sums of absolute differences (R240 to R242): format USAD
  /-- `USAD8(cond) Rd, Rm, Rs` (R240). -/
  | usad8 (c : Cond) (rd rm rs : RegNum)
  /-- `USADA8(cond) Rd, Rm, Rs, Rn` (R241). -/
  | usada8 (c : Cond) (rd rm rs rn : RegNum)
  -- Halfword packs (R250 to R252): format PKH
  /-- `PKHBT(cond) Rd, Rn, Rm (, LSL #imm)` (R250). -/
  | pkhbt (c : Cond) (rd rn rm : RegNum) (shiftImm : BitVec 5)
  /-- `PKHTB(cond) Rd, Rn, Rm (, ASR #imm)` (R251). -/
  | pkhtb (c : Cond) (rd rn rm : RegNum) (shiftImm : BitVec 5)
  -- Byte reversals (R260 to R263): format REV
  /-- `REV(cond) Rd, Rm` (R260). -/
  | rev (c : Cond) (rd rm : RegNum)
  /-- `REV16(cond) Rd, Rm` (R261). -/
  | rev16 (c : Cond) (rd rm : RegNum)
  /-- `REVSH(cond) Rd, Rm` (R262). -/
  | revsh (c : Cond) (rd rm : RegNum)
deriving DecidableEq, Repr

/-- The row of the opcode table an instruction belongs to. -/
def Instr.mnemonic : Instr → Mnemonic
  | .sxtab16 .. => .sxtab16
  | .sxtab .. => .sxtab
  | .sxtah .. => .sxtah
  | .uxtab16 .. => .uxtab16
  | .uxtab .. => .uxtab
  | .uxtah .. => .uxtah
  | .sxtb16 .. => .sxtb16
  | .sxtb .. => .sxtb
  | .sxth .. => .sxth
  | .uxtb16 .. => .uxtb16
  | .uxtb .. => .uxtb
  | .uxth .. => .uxth
  | .sel .. => .sel
  | .sadd16 .. => .sadd16
  | .saddsubx .. => .saddsubx
  | .ssubaddx .. => .ssubaddx
  | .ssub16 .. => .ssub16
  | .sadd8 .. => .sadd8
  | .ssub8 .. => .ssub8
  | .qadd16 .. => .qadd16
  | .qaddsubx .. => .qaddsubx
  | .qsubaddx .. => .qsubaddx
  | .qsub16 .. => .qsub16
  | .qadd8 .. => .qadd8
  | .qsub8 .. => .qsub8
  | .shadd16 .. => .shadd16
  | .shaddsubx .. => .shaddsubx
  | .shsubaddx .. => .shsubaddx
  | .shsub16 .. => .shsub16
  | .shadd8 .. => .shadd8
  | .shsub8 .. => .shsub8
  | .uadd16 .. => .uadd16
  | .uaddsubx .. => .uaddsubx
  | .usubaddx .. => .usubaddx
  | .usub16 .. => .usub16
  | .uadd8 .. => .uadd8
  | .usub8 .. => .usub8
  | .uqadd16 .. => .uqadd16
  | .uqaddsubx .. => .uqaddsubx
  | .uqsubaddx .. => .uqsubaddx
  | .uqsub16 .. => .uqsub16
  | .uqadd8 .. => .uqadd8
  | .uqsub8 .. => .uqsub8
  | .uhadd16 .. => .uhadd16
  | .uhaddsubx .. => .uhaddsubx
  | .uhsubaddx .. => .uhsubaddx
  | .uhsub16 .. => .uhsub16
  | .uhadd8 .. => .uhadd8
  | .uhsub8 .. => .uhsub8
  | .smuad .. => .smuad
  | .smlad .. => .smlad
  | .smusd .. => .smusd
  | .smlsd .. => .smlsd
  | .smlald .. => .smlald
  | .smlsld .. => .smlsld
  | .smmul .. => .smmul
  | .smmla .. => .smmla
  | .smmls .. => .smmls
  | .ssat .. => .ssat
  | .usat .. => .usat
  | .ssat16 .. => .ssat16
  | .usat16 .. => .usat16
  | .usad8 .. => .usad8
  | .usada8 .. => .usada8
  | .pkhbt .. => .pkhbt
  | .pkhtb .. => .pkhtb
  | .rev .. => .rev
  | .rev16 .. => .rev16
  | .revsh .. => .revsh

/-- The condition field of an instruction (bits 31-28, R50). -/
def Instr.cond : Instr → Cond
  | .sxtab16 c .. => c
  | .sxtab c .. => c
  | .sxtah c .. => c
  | .uxtab16 c .. => c
  | .uxtab c .. => c
  | .uxtah c .. => c
  | .sxtb16 c .. => c
  | .sxtb c .. => c
  | .sxth c .. => c
  | .uxtb16 c .. => c
  | .uxtb c .. => c
  | .uxth c .. => c
  | .sel c .. => c
  | .sadd16 c .. => c
  | .saddsubx c .. => c
  | .ssubaddx c .. => c
  | .ssub16 c .. => c
  | .sadd8 c .. => c
  | .ssub8 c .. => c
  | .qadd16 c .. => c
  | .qaddsubx c .. => c
  | .qsubaddx c .. => c
  | .qsub16 c .. => c
  | .qadd8 c .. => c
  | .qsub8 c .. => c
  | .shadd16 c .. => c
  | .shaddsubx c .. => c
  | .shsubaddx c .. => c
  | .shsub16 c .. => c
  | .shadd8 c .. => c
  | .shsub8 c .. => c
  | .uadd16 c .. => c
  | .uaddsubx c .. => c
  | .usubaddx c .. => c
  | .usub16 c .. => c
  | .uadd8 c .. => c
  | .usub8 c .. => c
  | .uqadd16 c .. => c
  | .uqaddsubx c .. => c
  | .uqsubaddx c .. => c
  | .uqsub16 c .. => c
  | .uqadd8 c .. => c
  | .uqsub8 c .. => c
  | .uhadd16 c .. => c
  | .uhaddsubx c .. => c
  | .uhsubaddx c .. => c
  | .uhsub16 c .. => c
  | .uhadd8 c .. => c
  | .uhsub8 c .. => c
  | .smuad c .. => c
  | .smlad c .. => c
  | .smusd c .. => c
  | .smlsd c .. => c
  | .smlald c .. => c
  | .smlsld c .. => c
  | .smmul c .. => c
  | .smmla c .. => c
  | .smmls c .. => c
  | .ssat c .. => c
  | .usat c .. => c
  | .ssat16 c .. => c
  | .usat16 c .. => c
  | .usad8 c .. => c
  | .usada8 c .. => c
  | .pkhbt c .. => c
  | .pkhtb c .. => c
  | .rev c .. => c
  | .rev16 c .. => c
  | .revsh c .. => c

end Sys2Proof
end

