-- ==== Sys2Proof/Machine/Flags.lean ====
section
/-! DEFINITION. The flags: what a condition reads (R29), how the GE flags are computed (R25, R132, R160), when a result
overflows or saturates (R208, R209, R221), and the word positions of the flags (R24). -/

namespace Sys2Proof.Machine

/-- `ConditionPassed(cond)` (R29). -/
def conditionPassed (c : Cond) (f : Cpsr) : Bool :=
  match c with
  | .eq => f.z
  | .ne => !f.z
  | .cs => f.c
  | .cc => !f.c
  | .mi => f.n
  | .pl => !f.n
  | .vs => f.v
  | .vc => !f.v
  | .hi => f.c && !f.z
  | .ls => !f.c || f.z
  | .ge => f.n == f.v
  | .lt => f.n != f.v
  | .gt => !f.z && f.n == f.v
  | .le => f.z || f.n != f.v
  | .al => true

/-- The GE test of the S prefix: the exact signed lane result is not negative (R132 to R137). -/
def signedGe (n : Int) : Bool := 0 ≤ n

/-- The GE test of an unsigned addition in a lane of `w` bits: it carries out (R160). -/
def carryGe (w : Nat) (n : Int) : Bool := 2 ^ w ≤ n

/-- The GE test of an unsigned subtraction: there is no borrow (R160). -/
def noBorrowGe (n : Int) : Bool := 0 ≤ n

/-- `GE[3:2]` and `GE[1:0]` from the tests of the top and the bottom halfword: a lane writes a pair (R25, R132). -/
def gePairs (top bottom : Bool) : BitVec 4 :=
  (if top then 0b11#2 else 0b00#2) ++ (if bottom then 0b11#2 else 0b00#2)

/-- `GE[3]` down to `GE[0]` from the tests of the four bytes: a lane writes one flag (R25, R136). -/
def geBits (b3 b2 b1 b0 : Bool) : BitVec 4 :=
  BitVec.ofBool b3 ++ BitVec.ofBool b2 ++ BitVec.ofBool b1 ++ BitVec.ofBool b0

/-- The exact integer result is outside the signed 32-bit range: `n != SInt(trunc_32(n))` (R208). -/
def overflow32 (n : Int) : Bool := (trunc 32 n).toInt != n

/-- The exact integer result is outside the signed 64-bit range: `n != SInt(trunc_64(n))` (R209, R211). -/
def overflow64 (n : Int) : Bool := (trunc 64 n).toInt != n

/-- Bit `i` of the CPSR where the model holds it: N 31, Z 30, C 29, V 28, Q 27, GE[3:0] 19-16 (R24). The other bits are not
modelled (log entry 13). -/
def Cpsr.bit? (f : Cpsr) (i : Nat) : Option Bool :=
  if i = 31 then some f.n
  else if i = 30 then some f.z
  else if i = 29 then some f.c
  else if i = 28 then some f.v
  else if i = 27 then some f.q
  else if 16 ≤ i ∧ i ≤ 19 then some (f.ge.getLsbD (i - 16))
  else none

end Sys2Proof.Machine
end

