-- ==== Sys2Proof/Machine/Operands.lean ====
section
/-! DEFINITION. Operands: which register a 4-bit number names (R20, R21), and the rotated, shifted, exchanged and rounded
operands of the formats (R100, R201, R202, R220, R222, R250, R251). -/

namespace Sys2Proof.Machine

/-- The register a 4-bit number names; 15 names none (R21, R53). -/
def gpr? (r : RegNum) : Option GPR := if h : r.toNat < 15 then some ⟨r.toNat, h⟩ else none

/-- The 4-bit number of a register (R20). -/
def regNum (d : GPR) : RegNum := BitVec.ofNat 4 d

/-- The rotated operand of the extends: `ROR32(x[Rm], 8 * UInt(rot))` (R100). -/
def rotated (v : Word) (rot : BitVec 2) : Word := ror32 v (8 * rot.toNat)

/-- The shifted operand of SSAT and USAT (R220): LSL by 0 to 31, or ASR by 1 to 31, a field of 0 meaning ASR #32. -/
def satOperand (sh : ShiftType) (shiftImm : BitVec 5) (v : Word) : Word :=
  match sh with
  | .lsl => lsl32 v shiftImm.toNat
  | .asr => if shiftImm = 0 then asr32 v 32 else asr32 v shiftImm.toNat

/-- The saturation width of SSAT and SSAT16: `UInt(sat_imm) + 1` (R221, R223). -/
def ssatWidth {k : Nat} (satImm : BitVec k) : Nat := satImm.toNat + 1

/-- The saturation width of USAT and USAT16, as `USAT_BOUND` reads the field (R222, R224). -/
def usatWidth {k : Nat} (bound : UsatBound) (satImm : BitVec k) : Nat :=
  match bound with
  | .twoPowField => satImm.toNat
  | .twoPowFieldPlus1 => satImm.toNat + 1

/-- The second operand of a dual multiply, its halfwords exchanged when X is set (R201). -/
def exchanged (x : Bool) (v : Word) : Word := if x then ror32 v 16 else v

/-- The bottom product `p1` of a dual multiply, an exact integer (R201). -/
def bottomProduct (x : Bool) (m s : Word) : Int := (lo16 m).toInt * (lo16 (exchanged x s)).toInt

/-- The top product `p2` of a dual multiply, an exact integer (R201). -/
def topProduct (x : Bool) (m s : Word) : Int := (hi16 m).toInt * (hi16 (exchanged x s)).toInt

/-- The rounding constant of SMMUL, SMMLA and SMMLS (R202). -/
def roundConstant (r : Bool) : Int := if r then 0x80000000 else 0

/-- The sum of absolute differences of the bytes (R242). -/
def absDiffSum (m s : Word) : Nat :=
  let d := fun i => (((byteAt m i).toNat : Int) - (byteAt s i).toNat).natAbs
  d 0 + d 1 + d 2 + d 3

/-- The arithmetic shift amount of PKHTB: a field of 0 means 32 (R251). -/
def pkhtbShift (shiftImm : BitVec 5) : Nat := if shiftImm = 0 then 32 else shiftImm.toNat

end Sys2Proof.Machine
end

