-- ==== Sys2Proof/Machine/Ops.lean ====
section
/-! DEFINITION. The named operations over the registers and flags, and the wrapper every instruction runs under (R52): the
register fields are tested first, then the condition, then the body runs, then `pc` advances by 4. The spec gives the machine
no exception, so there is none to take and none to return from (R300, R307, R308). -/

namespace Sys2Proof.Machine

/-- `x[i]` (R8). -/
def State.reg (s : State) (d : GPR) : Word := s.regs[d]

/-- `x[i] <- v` (R8). -/
def State.setReg (s : State) (d : GPR) (v : Word) : State := { s with regs := s.regs.set d v }

/-- `pc <- trunc_32(UInt(pc) + 4)` (R23, R52). -/
def State.advance (s : State) : State := { s with pc := s.pc + 4 }

/-- What the body of an instruction with one destination does: the value of `Rd`, the four GE flags where it writes them
(R25), and whether it sets Q (R26). -/
structure Effect where
  /-- The value written to `Rd`. -/
  value : Word
  /-- `GE[3:0]`, written all four at once or not at all (R25). -/
  ge : Option (BitVec 4) := none
  /-- Q is set; it is never cleared (R26). -/
  setQ : Bool := false
deriving DecidableEq, Repr

/-- `Q <- 1` where the operation saturates or overflows; Q is sticky (R26, D32). -/
def State.raiseQ (s : State) (b : Bool) : State := { s with cpsr := { s.cpsr with q := s.cpsr.q || b } }

/-- All four GE flags are written (R25). -/
def State.setGE (s : State) (g : BitVec 4) : State := { s with cpsr := { s.cpsr with ge := g } }

/-- An effect is written to its destination and to the flags. -/
def State.apply (s : State) (d : GPR) (e : Effect) : State :=
  let t := (s.setReg d e.value).raiseQ e.setQ
  match e.ge with
  | some g => t.setGE g
  | none => t

/-- The end of R52: the body runs if the condition passes, and `pc` advances either way. -/
def complete (c : Cond) (s : State) (body : State → State) : Result :=
  .next (if conditionPassed c s.cpsr then body s else s).advance

/-- An instruction `Rd <- f(x[Rm])` under R52. -/
def unary (c : Cond) (rd rm : RegNum) (s : State) (f : Word → Effect) : Result :=
  match gpr? rd, gpr? rm with
  | some d, some m => complete c s fun s => s.apply d (f (s.reg m))
  | _, _ => .refused .unpredictableR15

/-- An instruction `Rd <- f(x[Ra], x[Rb])` under R52. -/
def binary (c : Cond) (rd ra rb : RegNum) (s : State) (f : Word → Word → Effect) : Result :=
  match gpr? rd, gpr? ra, gpr? rb with
  | some d, some a, some b => complete c s fun s => s.apply d (f (s.reg a) (s.reg b))
  | _, _, _ => .refused .unpredictableR15

/-- An instruction `Rd <- f(x[Ra], x[Rb], x[Rn])` with an accumulate operand, under R52. -/
def ternary (c : Cond) (rd ra rb rn : RegNum) (s : State) (f : Word → Word → Word → Effect) : Result :=
  match gpr? rd, gpr? ra, gpr? rb, gpr? rn with
  | some d, some a, some b, some n => complete c s fun s => s.apply d (f (s.reg a) (s.reg b) (s.reg n))
  | _, _, _, _ => .refused .unpredictableR15

/-- An instruction on the 64-bit accumulator `RdHi:RdLo` (R210, R211) under R52: `f` gives the exact result from the
accumulator and the two operands, and `q` whether it sets Q. `RdHi = RdLo` is refused (R203). -/
def longAccumulate (c : Cond) (rdLo rdHi rm rs : RegNum) (s : State) (f : Int → Word → Word → Int) (q : Int → Bool) : Result :=
  match gpr? rdLo, gpr? rdHi, gpr? rm, gpr? rs with
  | some lo, some hi, some m, some k =>
    if lo = hi then .refused .unpredictableRdHiRdLo
    else complete c s fun s =>
      let n := f (s.reg hi ++ s.reg lo : Dword).toInt (s.reg m) (s.reg k)
      let r : Dword := trunc 64 n
      ((s.setReg lo (r.extractLsb' 0 32)).setReg hi (r.extractLsb' 32 32)).raiseQ (q n)
  | _, _, _, _ => .refused .unpredictableR15

end Sys2Proof.Machine
end

