-- ==== Sys2Proof/Machine/AbsDiff.lean ====
section
/-! DEFINITION. The unsigned sums of absolute differences (R240 to R242, `spec/46_usad.md`). No flag is written. -/

namespace Sys2Proof.Machine

/-- USAD8 (R240). -/
def execUsad8 (c : Cond) (rd rm rs : RegNum) (s : State) : Result :=
  binary c rd rm rs s fun a b => { value := trunc 32 (absDiffSum a b) }

/-- USADA8 (R241): the accumulate wraps modulo `2^32`. -/
def execUsada8 (c : Cond) (rd rm rs rn : RegNum) (s : State) : Result :=
  ternary c rd rm rs rn s fun a b n => { value := trunc 32 (n.toNat + absDiffSum a b) }

end Sys2Proof.Machine
end

