-- ==== Sys2Proof/Machine/Extend.lean ====
section
/-! DEFINITION. The twelve extends (R100 to R113, `spec/40_extend.md`). None writes a flag (R101). -/

namespace Sys2Proof.Machine

/-- SXTAB16 (R102). -/
def execSxtab16 (c : Cond) (rd rn rm : RegNum) (rot : BitVec 2) (s : State) : Result :=
  binary c rd rn rm s fun n m =>
    let v := rotated m rot
    { value := halves (trunc 16 ((hi16 n).toNat + (byteAt v 2).toInt)) (trunc 16 ((lo16 n).toNat + (byteAt v 0).toInt)) }

/-- SXTAB (R103). -/
def execSxtab (c : Cond) (rd rn rm : RegNum) (rot : BitVec 2) (s : State) : Result :=
  binary c rd rn rm s fun n m => { value := trunc 32 (n.toNat + (byteAt (rotated m rot) 0).toInt) }

/-- SXTAH (R104). -/
def execSxtah (c : Cond) (rd rn rm : RegNum) (rot : BitVec 2) (s : State) : Result :=
  binary c rd rn rm s fun n m => { value := trunc 32 (n.toNat + (lo16 (rotated m rot)).toInt) }

/-- UXTAB16 (R105). -/
def execUxtab16 (c : Cond) (rd rn rm : RegNum) (rot : BitVec 2) (s : State) : Result :=
  binary c rd rn rm s fun n m =>
    let v := rotated m rot
    { value := halves (trunc 16 ((hi16 n).toNat + (byteAt v 2).toNat)) (trunc 16 ((lo16 n).toNat + (byteAt v 0).toNat)) }

/-- UXTAB (R106). -/
def execUxtab (c : Cond) (rd rn rm : RegNum) (rot : BitVec 2) (s : State) : Result :=
  binary c rd rn rm s fun n m => { value := trunc 32 (n.toNat + (byteAt (rotated m rot) 0).toNat) }

/-- UXTAH (R107). -/
def execUxtah (c : Cond) (rd rn rm : RegNum) (rot : BitVec 2) (s : State) : Result :=
  binary c rd rn rm s fun n m => { value := trunc 32 (n.toNat + (lo16 (rotated m rot)).toNat) }

/-- SXTB16 (R108). -/
def execSxtb16 (c : Cond) (rd rm : RegNum) (rot : BitVec 2) (s : State) : Result :=
  unary c rd rm s fun m =>
    let v := rotated m rot
    { value := halves ((byteAt v 2).signExtend 16) ((byteAt v 0).signExtend 16) }

/-- SXTB (R109). -/
def execSxtb (c : Cond) (rd rm : RegNum) (rot : BitVec 2) (s : State) : Result :=
  unary c rd rm s fun m => { value := (byteAt (rotated m rot) 0).signExtend 32 }

/-- SXTH (R110). -/
def execSxth (c : Cond) (rd rm : RegNum) (rot : BitVec 2) (s : State) : Result :=
  unary c rd rm s fun m => { value := (lo16 (rotated m rot)).signExtend 32 }

/-- UXTB16 (R111). -/
def execUxtb16 (c : Cond) (rd rm : RegNum) (rot : BitVec 2) (s : State) : Result :=
  unary c rd rm s fun m =>
    let v := rotated m rot
    { value := halves ((byteAt v 2).zeroExtend 16) ((byteAt v 0).zeroExtend 16) }

/-- UXTB (R112). -/
def execUxtb (c : Cond) (rd rm : RegNum) (rot : BitVec 2) (s : State) : Result :=
  unary c rd rm s fun m => { value := (byteAt (rotated m rot) 0).zeroExtend 32 }

/-- UXTH (R113). -/
def execUxth (c : Cond) (rd rm : RegNum) (rot : BitVec 2) (s : State) : Result :=
  unary c rd rm s fun m => { value := (lo16 (rotated m rot)).zeroExtend 32 }

end Sys2Proof.Machine
end

