-- ==== Sys2Proof/Machine/Multiply.lean ====
section
/-! DEFINITION. The dual halfword multiplies and the most significant word multiplies (R200 to R214,
`spec/44_multiply.md`). The four descriptions the source marks as bugged are not used (`spec/90_conflicts.md` C1). -/

namespace Sys2Proof.Machine

/-- A 32-bit result kept modulo `2^32`; Q is set where `canSetQ` and the exact result overflows (R208). -/
def accumulated (canSetQ : Bool) (n : Int) : Effect := { value := trunc 32 n, setQ := canSetQ && overflow32 n }

/-- SMUAD (R204). -/
def execSmuad (c : Cond) (x : Bool) (rd rm rs : RegNum) (s : State) : Result :=
  binary c rd rm rs s fun a b => accumulated true (bottomProduct x a b + topProduct x a b)

/-- SMLAD (R205). -/
def execSmlad (c : Cond) (x : Bool) (rd rm rs rn : RegNum) (s : State) : Result :=
  ternary c rd rm rs rn s fun a b n => accumulated true (n.toInt + bottomProduct x a b + topProduct x a b)

/-- SMUSD (R206): bottom product minus top product; no flag. -/
def execSmusd (c : Cond) (x : Bool) (rd rm rs : RegNum) (s : State) : Result :=
  binary c rd rm rs s fun a b => accumulated false (bottomProduct x a b - topProduct x a b)

/-- SMLSD (R207): Q as `Q_DUAL_SUB` decides (R209). -/
def execSmlsd (c : Cond) (x : Bool) (rd rm rs rn : RegNum) (s : State) : Result :=
  ternary c rd rm rs rn s fun a b n =>
    accumulated (s.cfg.qDualSub == .armArm) (n.toInt + bottomProduct x a b - topProduct x a b)

/-- SMLALD (R210): no flag. -/
def execSmlald (c : Cond) (x : Bool) (rdLo rdHi rm rs : RegNum) (s : State) : Result :=
  longAccumulate c rdLo rdHi rm rs s (fun acc a b => acc + bottomProduct x a b + topProduct x a b) fun _ => false

/-- SMLSLD (R211): Q as `Q_DUAL_SUB` decides (R209). -/
def execSmlsld (c : Cond) (x : Bool) (rdLo rdHi rm rs : RegNum) (s : State) : Result :=
  longAccumulate c rdLo rdHi rm rs s (fun acc a b => acc + bottomProduct x a b - topProduct x a b)
    fun n => s.cfg.qDualSub == .sourceLiteral && overflow64 n

/-- SMMUL (R212). -/
def execSmmul (c : Cond) (r : Bool) (rd rm rs : RegNum) (s : State) : Result :=
  binary c rd rm rs s fun a b => { value := top32 (a.toInt * b.toInt + roundConstant r) }

/-- SMMLA (R213). -/
def execSmmla (c : Cond) (r : Bool) (rd rm rs rn : RegNum) (s : State) : Result :=
  ternary c rd rm rs rn s fun a b n => { value := top32 (n.toInt * 2 ^ 32 + a.toInt * b.toInt + roundConstant r) }

/-- The result of SMMLS from the accumulate operand and the exact product, in the form `SMMLS_FORM` names (R214). -/
def smmlsValue (form : SmmlsForm) (r : Bool) (n : Word) (p : Int) : Word :=
  match form with
  | .wide64 => top32 (n.toInt * 2 ^ 32 - p + roundConstant r)
  | .top32ThenSub => trunc 32 (n.toNat - (top32 (p + roundConstant r)).toNat)

/-- SMMLS (R214). -/
def execSmmls (c : Cond) (r : Bool) (rd rm rs rn : RegNum) (s : State) : Result :=
  ternary c rd rm rs rn s fun a b n => { value := smmlsValue s.cfg.smmlsForm r n (a.toInt * b.toInt) }

end Sys2Proof.Machine
end

