-- ==== Sys2Proof/Machine/Pack.lean ====
section
/-! DEFINITION. The halfword packs (R250 to R252, `spec/47_pack.md`). No flag is written. -/

namespace Sys2Proof.Machine

/-- PKHBT (R250). -/
def execPkhbt (c : Cond) (rd rn rm : RegNum) (shiftImm : BitVec 5) (s : State) : Result :=
  binary c rd rn rm s fun n m => { value := halves (hi16 (lsl32 m shiftImm.toNat)) (lo16 n) }

/-- PKHTB (R251): a shift field of 0 means ASR #32. -/
def execPkhtb (c : Cond) (rd rn rm : RegNum) (shiftImm : BitVec 5) (s : State) : Result :=
  binary c rd rn rm s fun n m => { value := halves (hi16 n) (lo16 (asr32 m (pkhtbShift shiftImm))) }

end Sys2Proof.Machine
end

