-- ==== Sys2Proof/Machine/Lanes.lean ====
section
/-! DEFINITION. What the 36 parallel add/subtract instructions share: the pairing of lanes of the six operations and the
treatment of an exact lane result by the six prefixes (R131, R138, R144, R160, R168, R174). -/

namespace Sys2Proof.Machine

/-- The exact integer results of the two halfword lanes. -/
structure HalfLanes where
  /-- The lane of `Rd[31:16]`. -/
  top : Int
  /-- The lane of `Rd[15:0]`. -/
  bottom : Int
deriving DecidableEq, Repr

/-- The exact integer results of the four byte lanes; `b i` is byte `i` of `Rd`. -/
structure ByteLanes where
  /-- The lane of `Rd[31:24]`. -/
  b3 : Int
  /-- The lane of `Rd[23:16]`. -/
  b2 : Int
  /-- The lane of `Rd[15:8]`. -/
  b1 : Int
  /-- The lane of `Rd[7:0]`. -/
  b0 : Int
deriving DecidableEq, Repr

/-- `val` of the prefixes S, Q and SH (R131). -/
def sint {w : Nat} (v : BitVec w) : Int := v.toInt

/-- `val` of the prefixes U, UQ and UH (R131). -/
def uint {w : Nat} (v : BitVec w) : Int := v.toNat

/-- ADD16 (R131). -/
def add16 (val : Half → Int) (n m : Word) : HalfLanes :=
  ⟨val (hi16 n) + val (hi16 m), val (lo16 n) + val (lo16 m)⟩

/-- SUB16 (R131). -/
def sub16 (val : Half → Int) (n m : Word) : HalfLanes :=
  ⟨val (hi16 n) - val (hi16 m), val (lo16 n) - val (lo16 m)⟩

/-- ADDSUBX (R131): the halfwords of the second operand are exchanged; add on top, subtract below. -/
def addsubx (val : Half → Int) (n m : Word) : HalfLanes :=
  ⟨val (hi16 n) + val (lo16 m), val (lo16 n) - val (hi16 m)⟩

/-- SUBADDX (R131): the halfwords of the second operand are exchanged; subtract on top, add below. -/
def subaddx (val : Half → Int) (n m : Word) : HalfLanes :=
  ⟨val (hi16 n) - val (lo16 m), val (lo16 n) + val (hi16 m)⟩

/-- ADD8 (R131). -/
def add8 (val : Byte → Int) (n m : Word) : ByteLanes :=
  let lane := fun i => val (byteAt n i) + val (byteAt m i)
  ⟨lane 3, lane 2, lane 1, lane 0⟩

/-- SUB8 (R131). -/
def sub8 (val : Byte → Int) (n m : Word) : ByteLanes :=
  let lane := fun i => val (byteAt n i) - val (byteAt m i)
  ⟨lane 3, lane 2, lane 1, lane 0⟩

/-- The word whose halfwords are the lanes, each narrowed by `f`. -/
def HalfLanes.pack (l : HalfLanes) (f : Int → Half) : Word := halves (f l.top) (f l.bottom)

/-- The word whose bytes are the lanes, each narrowed by `f`. -/
def ByteLanes.pack (l : ByteLanes) (f : Int → Byte) : Word := bytes (f l.b3) (f l.b2) (f l.b1) (f l.b0)

/-- Prefixes S and U on halfwords: the low bits are kept, and each lane writes a pair of GE flags (R132, R160). -/
def wrap16 (topGe bottomGe : Int → Bool) (l : HalfLanes) : Effect :=
  { value := l.pack (trunc 16), ge := some (gePairs (topGe l.top) (bottomGe l.bottom)) }

/-- Prefixes S and U on bytes: the low bits are kept, and each lane writes one GE flag (R136, R160). -/
def wrap8 (ge : Int → Bool) (l : ByteLanes) : Effect :=
  { value := l.pack (trunc 8), ge := some (geBits (ge l.b3) (ge l.b2) (ge l.b1) (ge l.b0)) }

/-- Prefix Q on halfwords: signed saturation, no flag (R138). -/
def saturateSigned16 (l : HalfLanes) : Effect := { value := l.pack fun n => trunc 16 (signedSat n 16) }

/-- Prefix Q on bytes: signed saturation, no flag (R138). -/
def saturateSigned8 (l : ByteLanes) : Effect := { value := l.pack fun n => trunc 8 (signedSat n 8) }

/-- Prefix UQ on halfwords: unsigned saturation, no flag (R168). -/
def saturateUnsigned16 (l : HalfLanes) : Effect := { value := l.pack fun n => trunc 16 (unsignedSat n 16) }

/-- Prefix UQ on bytes: unsigned saturation, no flag (R168). -/
def saturateUnsigned8 (l : ByteLanes) : Effect := { value := l.pack fun n => trunc 8 (unsignedSat n 8) }

/-- Prefixes SH and UH on halfwords: the exact result is halved by floor, no flag (R144, R174). -/
def halve16 (l : HalfLanes) : Effect := { value := l.pack fun n => trunc 16 (halve n) }

/-- Prefixes SH and UH on bytes: the exact result is halved by floor, no flag (R144, R174). -/
def halve8 (l : ByteLanes) : Effect := { value := l.pack fun n => trunc 8 (halve n) }

end Sys2Proof.Machine
end

