-- ==== Sys2Proof/Machine/ParallelSigned.lean ====
section
/-! DEFINITION. The signed parallel add/subtract instructions: prefixes S, Q and SH (R130 to R149, `spec/42_parallel_signed.md`). -/

namespace Sys2Proof.Machine

/-- SADD16 (R132). -/
def execSadd16 (c : Cond) (rd rn rm : RegNum) (s : State) : Result :=
  binary c rd rn rm s fun n m => wrap16 signedGe signedGe (add16 sint n m)

/-- SADDSUBX (R133). -/
def execSaddsubx (c : Cond) (rd rn rm : RegNum) (s : State) : Result :=
  binary c rd rn rm s fun n m => wrap16 signedGe signedGe (addsubx sint n m)

/-- SSUBADDX (R134). -/
def execSsubaddx (c : Cond) (rd rn rm : RegNum) (s : State) : Result :=
  binary c rd rn rm s fun n m => wrap16 signedGe signedGe (subaddx sint n m)

/-- SSUB16 (R135). -/
def execSsub16 (c : Cond) (rd rn rm : RegNum) (s : State) : Result :=
  binary c rd rn rm s fun n m => wrap16 signedGe signedGe (sub16 sint n m)

/-- SADD8 (R136). -/
def execSadd8 (c : Cond) (rd rn rm : RegNum) (s : State) : Result :=
  binary c rd rn rm s fun n m => wrap8 signedGe (add8 sint n m)

/-- SSUB8 (R137). -/
def execSsub8 (c : Cond) (rd rn rm : RegNum) (s : State) : Result :=
  binary c rd rn rm s fun n m => wrap8 signedGe (sub8 sint n m)

/-- QADD16 (R138). -/
def execQadd16 (c : Cond) (rd rn rm : RegNum) (s : State) : Result :=
  binary c rd rn rm s fun n m => saturateSigned16 (add16 sint n m)

/-- QADDSUBX (R139). -/
def execQaddsubx (c : Cond) (rd rn rm : RegNum) (s : State) : Result :=
  binary c rd rn rm s fun n m => saturateSigned16 (addsubx sint n m)

/-- QSUBADDX (R140). -/
def execQsubaddx (c : Cond) (rd rn rm : RegNum) (s : State) : Result :=
  binary c rd rn rm s fun n m => saturateSigned16 (subaddx sint n m)

/-- QSUB16 (R141). -/
def execQsub16 (c : Cond) (rd rn rm : RegNum) (s : State) : Result :=
  binary c rd rn rm s fun n m => saturateSigned16 (sub16 sint n m)

/-- QADD8 (R142). -/
def execQadd8 (c : Cond) (rd rn rm : RegNum) (s : State) : Result :=
  binary c rd rn rm s fun n m => saturateSigned8 (add8 sint n m)

/-- QSUB8 (R143). -/
def execQsub8 (c : Cond) (rd rn rm : RegNum) (s : State) : Result :=
  binary c rd rn rm s fun n m => saturateSigned8 (sub8 sint n m)

/-- SHADD16 (R144). -/
def execShadd16 (c : Cond) (rd rn rm : RegNum) (s : State) : Result :=
  binary c rd rn rm s fun n m => halve16 (add16 sint n m)

/-- SHADDSUBX (R145). -/
def execShaddsubx (c : Cond) (rd rn rm : RegNum) (s : State) : Result :=
  binary c rd rn rm s fun n m => halve16 (addsubx sint n m)

/-- SHSUBADDX (R146). -/
def execShsubaddx (c : Cond) (rd rn rm : RegNum) (s : State) : Result :=
  binary c rd rn rm s fun n m => halve16 (subaddx sint n m)

/-- SHSUB16 (R147). -/
def execShsub16 (c : Cond) (rd rn rm : RegNum) (s : State) : Result :=
  binary c rd rn rm s fun n m => halve16 (sub16 sint n m)

/-- SHADD8 (R148). -/
def execShadd8 (c : Cond) (rd rn rm : RegNum) (s : State) : Result :=
  binary c rd rn rm s fun n m => halve8 (add8 sint n m)

/-- SHSUB8 (R149). -/
def execShsub8 (c : Cond) (rd rn rm : RegNum) (s : State) : Result :=
  binary c rd rn rm s fun n m => halve8 (sub8 sint n m)

end Sys2Proof.Machine
end

