-- ==== Sys2Proof/Machine/ParallelUnsigned.lean ====
section
/-! DEFINITION. The unsigned parallel add/subtract instructions: prefixes U, UQ and UH (R160 to R179,
`spec/43_parallel_unsigned.md`). -/

namespace Sys2Proof.Machine

/-- UADD16 (R162). -/
def execUadd16 (c : Cond) (rd rn rm : RegNum) (s : State) : Result :=
  binary c rd rn rm s fun n m => wrap16 (carryGe 16) (carryGe 16) (add16 uint n m)

/-- UADDSUBX (R163). -/
def execUaddsubx (c : Cond) (rd rn rm : RegNum) (s : State) : Result :=
  binary c rd rn rm s fun n m => wrap16 (carryGe 16) noBorrowGe (addsubx uint n m)

/-- USUBADDX (R164). -/
def execUsubaddx (c : Cond) (rd rn rm : RegNum) (s : State) : Result :=
  binary c rd rn rm s fun n m => wrap16 noBorrowGe (carryGe 16) (subaddx uint n m)

/-- USUB16 (R165). -/
def execUsub16 (c : Cond) (rd rn rm : RegNum) (s : State) : Result :=
  binary c rd rn rm s fun n m => wrap16 noBorrowGe noBorrowGe (sub16 uint n m)

/-- UADD8 (R166). -/
def execUadd8 (c : Cond) (rd rn rm : RegNum) (s : State) : Result :=
  binary c rd rn rm s fun n m => wrap8 (carryGe 8) (add8 uint n m)

/-- USUB8 (R167). -/
def execUsub8 (c : Cond) (rd rn rm : RegNum) (s : State) : Result :=
  binary c rd rn rm s fun n m => wrap8 noBorrowGe (sub8 uint n m)

/-- UQADD16 (R168). -/
def execUqadd16 (c : Cond) (rd rn rm : RegNum) (s : State) : Result :=
  binary c rd rn rm s fun n m => saturateUnsigned16 (add16 uint n m)

/-- UQADDSUBX (R169). -/
def execUqaddsubx (c : Cond) (rd rn rm : RegNum) (s : State) : Result :=
  binary c rd rn rm s fun n m => saturateUnsigned16 (addsubx uint n m)

/-- UQSUBADDX (R170). -/
def execUqsubaddx (c : Cond) (rd rn rm : RegNum) (s : State) : Result :=
  binary c rd rn rm s fun n m => saturateUnsigned16 (subaddx uint n m)

/-- UQSUB16 (R171). -/
def execUqsub16 (c : Cond) (rd rn rm : RegNum) (s : State) : Result :=
  binary c rd rn rm s fun n m => saturateUnsigned16 (sub16 uint n m)

/-- UQADD8 (R172). -/
def execUqadd8 (c : Cond) (rd rn rm : RegNum) (s : State) : Result :=
  binary c rd rn rm s fun n m => saturateUnsigned8 (add8 uint n m)

/-- UQSUB8 (R173). -/
def execUqsub8 (c : Cond) (rd rn rm : RegNum) (s : State) : Result :=
  binary c rd rn rm s fun n m => saturateUnsigned8 (sub8 uint n m)

/-- UHADD16 (R174). -/
def execUhadd16 (c : Cond) (rd rn rm : RegNum) (s : State) : Result :=
  binary c rd rn rm s fun n m => halve16 (add16 uint n m)

/-- UHADDSUBX (R175). -/
def execUhaddsubx (c : Cond) (rd rn rm : RegNum) (s : State) : Result :=
  binary c rd rn rm s fun n m => halve16 (addsubx uint n m)

/-- UHSUBADDX (R176). -/
def execUhsubaddx (c : Cond) (rd rn rm : RegNum) (s : State) : Result :=
  binary c rd rn rm s fun n m => halve16 (subaddx uint n m)

/-- UHSUB16 (R177). -/
def execUhsub16 (c : Cond) (rd rn rm : RegNum) (s : State) : Result :=
  binary c rd rn rm s fun n m => halve16 (sub16 uint n m)

/-- UHADD8 (R178). -/
def execUhadd8 (c : Cond) (rd rn rm : RegNum) (s : State) : Result :=
  binary c rd rn rm s fun n m => halve8 (add8 uint n m)

/-- UHSUB8 (R179). -/
def execUhsub8 (c : Cond) (rd rn rm : RegNum) (s : State) : Result :=
  binary c rd rn rm s fun n m => halve8 (sub8 uint n m)

end Sys2Proof.Machine
end

