-- ==== Sys2Proof/Machine/Reverse.lean ====
section
/-! DEFINITION. The byte reversals (R260 to R263, `spec/48_reverse.md`). No flag is written and no memory touched. -/

namespace Sys2Proof.Machine

/-- The four bytes of a word in the opposite order (R260). -/
def reverseWord (v : Word) : Word := bytes (byteAt v 0) (byteAt v 1) (byteAt v 2) (byteAt v 3)

/-- The two bytes of each halfword exchanged (R261). -/
def reverseHalves (v : Word) : Word := bytes (byteAt v 2) (byteAt v 3) (byteAt v 0) (byteAt v 1)

/-- The two bytes of the bottom halfword exchanged (R262). -/
def reverseBottom (v : Word) : Half := byteAt v 0 ++ byteAt v 1

/-- REV (R260). -/
def execRev (c : Cond) (rd rm : RegNum) (s : State) : Result :=
  unary c rd rm s fun m => { value := reverseWord m }

/-- REV16 (R261). -/
def execRev16 (c : Cond) (rd rm : RegNum) (s : State) : Result :=
  unary c rd rm s fun m => { value := reverseHalves m }

/-- REVSH (R262): the exchanged halfword is sign-extended. -/
def execRevsh (c : Cond) (rd rm : RegNum) (s : State) : Result :=
  unary c rd rm s fun m => { value := (reverseBottom m).signExtend 32 }

end Sys2Proof.Machine
end

