-- ==== Sys2Proof/Machine/Saturate.lean ====
section
/-! DEFINITION. The saturates (R220 to R224, `spec/45_saturate.md`). Q is set where a value is changed by its saturation and
is never cleared. -/

namespace Sys2Proof.Machine

/-- One 32-bit saturation: the clamped value, and Q where it differs from the operand (R221, R222). -/
def saturated (sat : Int → Int) (v : Int) : Effect := { value := trunc 32 (sat v), setQ := sat v != v }

/-- Two 16-bit saturations of the halfwords read as signed; Q where either differs (R223, R224). -/
def saturatedHalves (sat : Int → Int) (m : Word) : Effect :=
  let v1 := (hi16 m).toInt
  let v0 := (lo16 m).toInt
  { value := halves (trunc 16 (sat v1)) (trunc 16 (sat v0)), setQ := sat v0 != v0 || sat v1 != v1 }

/-- SSAT (R221). -/
def execSsat (c : Cond) (rd : RegNum) (satImm : BitVec 5) (rm : RegNum) (sh : ShiftType) (shiftImm : BitVec 5) (s : State) :
    Result :=
  unary c rd rm s fun m => saturated (fun v => signedSat v (ssatWidth satImm)) (satOperand sh shiftImm m).toInt

/-- USAT (R222). The operand is read as signed here too. -/
def execUsat (c : Cond) (rd : RegNum) (satImm : BitVec 5) (rm : RegNum) (sh : ShiftType) (shiftImm : BitVec 5) (s : State) :
    Result :=
  unary c rd rm s fun m =>
    saturated (fun v => unsignedSat v (usatWidth s.cfg.usatBound satImm)) (satOperand sh shiftImm m).toInt

/-- SSAT16 (R223). -/
def execSsat16 (c : Cond) (rd : RegNum) (satImm : BitVec 4) (rm : RegNum) (s : State) : Result :=
  unary c rd rm s fun m => saturatedHalves (fun v => signedSat v (ssatWidth satImm)) m

/-- USAT16 (R224). -/
def execUsat16 (c : Cond) (rd : RegNum) (satImm : BitVec 4) (rm : RegNum) (s : State) : Result :=
  unary c rd rm s fun m => saturatedHalves (fun v => unsignedSat v (usatWidth s.cfg.usatBound satImm)) m

end Sys2Proof.Machine
end

