-- ==== Sys2Proof/Machine/Select.lean ====
section
/-! DEFINITION. SEL, select bytes on the GE flags (R120, `spec/41_select.md`). It reads GE and writes no flag. -/

namespace Sys2Proof.Machine

/-- Byte `i` of the selection: from the first operand where `GE[i]` is 1, else from the second (R120). -/
def selectedByte (ge : BitVec 4) (n m : Word) (i : Nat) : Byte := if ge.getLsbD i then byteAt n i else byteAt m i

/-- SEL (R120). -/
def execSel (c : Cond) (rd rn rm : RegNum) (s : State) : Result :=
  binary c rd rn rm s fun n m =>
    let b := selectedByte s.cpsr.ge n m
    { value := bytes (b 3) (b 2) (b 1) (b 0) }

end Sys2Proof.Machine
end

