-- ==== Sys2Proof/Machine/Dispatch.lean ====
section
/-! DEFINITION. The dispatch: one arm per constructor of `Instr`, one direct call of its meaning. -/

namespace Sys2Proof.Machine

def exec (i : Instr) (s : State) : Host.Outcome State Fault Refusal :=
  match i with
  | .sxtab16 c rd rn rm rot => Sys2Proof.Machine.execSxtab16 c rd rn rm rot s
  | .sxtab c rd rn rm rot => Sys2Proof.Machine.execSxtab c rd rn rm rot s
  | .sxtah c rd rn rm rot => Sys2Proof.Machine.execSxtah c rd rn rm rot s
  | .uxtab16 c rd rn rm rot => Sys2Proof.Machine.execUxtab16 c rd rn rm rot s
  | .uxtab c rd rn rm rot => Sys2Proof.Machine.execUxtab c rd rn rm rot s
  | .uxtah c rd rn rm rot => Sys2Proof.Machine.execUxtah c rd rn rm rot s
  | .sxtb16 c rd rm rot => Sys2Proof.Machine.execSxtb16 c rd rm rot s
  | .sxtb c rd rm rot => Sys2Proof.Machine.execSxtb c rd rm rot s
  | .sxth c rd rm rot => Sys2Proof.Machine.execSxth c rd rm rot s
  | .uxtb16 c rd rm rot => Sys2Proof.Machine.execUxtb16 c rd rm rot s
  | .uxtb c rd rm rot => Sys2Proof.Machine.execUxtb c rd rm rot s
  | .uxth c rd rm rot => Sys2Proof.Machine.execUxth c rd rm rot s
  | .sel c rd rn rm => Sys2Proof.Machine.execSel c rd rn rm s
  | .sadd16 c rd rn rm => Sys2Proof.Machine.execSadd16 c rd rn rm s
  | .saddsubx c rd rn rm => Sys2Proof.Machine.execSaddsubx c rd rn rm s
  | .ssubaddx c rd rn rm => Sys2Proof.Machine.execSsubaddx c rd rn rm s
  | .ssub16 c rd rn rm => Sys2Proof.Machine.execSsub16 c rd rn rm s
  | .sadd8 c rd rn rm => Sys2Proof.Machine.execSadd8 c rd rn rm s
  | .ssub8 c rd rn rm => Sys2Proof.Machine.execSsub8 c rd rn rm s
  | .qadd16 c rd rn rm => Sys2Proof.Machine.execQadd16 c rd rn rm s
  | .qaddsubx c rd rn rm => Sys2Proof.Machine.execQaddsubx c rd rn rm s
  | .qsubaddx c rd rn rm => Sys2Proof.Machine.execQsubaddx c rd rn rm s
  | .qsub16 c rd rn rm => Sys2Proof.Machine.execQsub16 c rd rn rm s
  | .qadd8 c rd rn rm => Sys2Proof.Machine.execQadd8 c rd rn rm s
  | .qsub8 c rd rn rm => Sys2Proof.Machine.execQsub8 c rd rn rm s
  | .shadd16 c rd rn rm => Sys2Proof.Machine.execShadd16 c rd rn rm s
  | .shaddsubx c rd rn rm => Sys2Proof.Machine.execShaddsubx c rd rn rm s
  | .shsubaddx c rd rn rm => Sys2Proof.Machine.execShsubaddx c rd rn rm s
  | .shsub16 c rd rn rm => Sys2Proof.Machine.execShsub16 c rd rn rm s
  | .shadd8 c rd rn rm => Sys2Proof.Machine.execShadd8 c rd rn rm s
  | .shsub8 c rd rn rm => Sys2Proof.Machine.execShsub8 c rd rn rm s
  | .uadd16 c rd rn rm => Sys2Proof.Machine.execUadd16 c rd rn rm s
  | .uaddsubx c rd rn rm => Sys2Proof.Machine.execUaddsubx c rd rn rm s
  | .usubaddx c rd rn rm => Sys2Proof.Machine.execUsubaddx c rd rn rm s
  | .usub16 c rd rn rm => Sys2Proof.Machine.execUsub16 c rd rn rm s
  | .uadd8 c rd rn rm => Sys2Proof.Machine.execUadd8 c rd rn rm s
  | .usub8 c rd rn rm => Sys2Proof.Machine.execUsub8 c rd rn rm s
  | .uqadd16 c rd rn rm => Sys2Proof.Machine.execUqadd16 c rd rn rm s
  | .uqaddsubx c rd rn rm => Sys2Proof.Machine.execUqaddsubx c rd rn rm s
  | .uqsubaddx c rd rn rm => Sys2Proof.Machine.execUqsubaddx c rd rn rm s
  | .uqsub16 c rd rn rm => Sys2Proof.Machine.execUqsub16 c rd rn rm s
  | .uqadd8 c rd rn rm => Sys2Proof.Machine.execUqadd8 c rd rn rm s
  | .uqsub8 c rd rn rm => Sys2Proof.Machine.execUqsub8 c rd rn rm s
  | .uhadd16 c rd rn rm => Sys2Proof.Machine.execUhadd16 c rd rn rm s
  | .uhaddsubx c rd rn rm => Sys2Proof.Machine.execUhaddsubx c rd rn rm s
  | .uhsubaddx c rd rn rm => Sys2Proof.Machine.execUhsubaddx c rd rn rm s
  | .uhsub16 c rd rn rm => Sys2Proof.Machine.execUhsub16 c rd rn rm s
  | .uhadd8 c rd rn rm => Sys2Proof.Machine.execUhadd8 c rd rn rm s
  | .uhsub8 c rd rn rm => Sys2Proof.Machine.execUhsub8 c rd rn rm s
  | .smuad c x rd rm rs => Sys2Proof.Machine.execSmuad c x rd rm rs s
  | .smlad c x rd rm rs rn => Sys2Proof.Machine.execSmlad c x rd rm rs rn s
  | .smusd c x rd rm rs => Sys2Proof.Machine.execSmusd c x rd rm rs s
  | .smlsd c x rd rm rs rn => Sys2Proof.Machine.execSmlsd c x rd rm rs rn s
  | .smlald c x rdLo rdHi rm rs => Sys2Proof.Machine.execSmlald c x rdLo rdHi rm rs s
  | .smlsld c x rdLo rdHi rm rs => Sys2Proof.Machine.execSmlsld c x rdLo rdHi rm rs s
  | .smmul c r rd rm rs => Sys2Proof.Machine.execSmmul c r rd rm rs s
  | .smmla c r rd rm rs rn => Sys2Proof.Machine.execSmmla c r rd rm rs rn s
  | .smmls c r rd rm rs rn => Sys2Proof.Machine.execSmmls c r rd rm rs rn s
  | .ssat c rd satImm rm sh shiftImm => Sys2Proof.Machine.execSsat c rd satImm rm sh shiftImm s
  | .usat c rd satImm rm sh shiftImm => Sys2Proof.Machine.execUsat c rd satImm rm sh shiftImm s
  | .ssat16 c rd satImm rm => Sys2Proof.Machine.execSsat16 c rd satImm rm s
  | .usat16 c rd satImm rm => Sys2Proof.Machine.execUsat16 c rd satImm rm s
  | .usad8 c rd rm rs => Sys2Proof.Machine.execUsad8 c rd rm rs s
  | .usada8 c rd rm rs rn => Sys2Proof.Machine.execUsada8 c rd rm rs rn s
  | .pkhbt c rd rn rm shiftImm => Sys2Proof.Machine.execPkhbt c rd rn rm shiftImm s
  | .pkhtb c rd rn rm shiftImm => Sys2Proof.Machine.execPkhtb c rd rn rm shiftImm s
  | .rev c rd rm => Sys2Proof.Machine.execRev c rd rm s
  | .rev16 c rd rm => Sys2Proof.Machine.execRev16 c rd rm s
  | .revsh c rd rm => Sys2Proof.Machine.execRevsh c rd rm s

end Sys2Proof.Machine
end

