-- ==== Sys2Proof/WellFormed.lean ====
section
/-! DEFINITION. Which instructions are well formed: no register field the instruction uses holds 15 (R53), and SMLALD and
SMLSLD name two different destinations (R203). The immediates need no check: every value of their fields is admitted (R58). -/

namespace Sys2Proof

/-- The fields an instruction uses as registers (R53), in the order of its syntax. -/
def Instr.registers : Instr → List RegNum
  | .sxtab16 _ rd rn rm _ => [rd, rn, rm]
  | .sxtab _ rd rn rm _ => [rd, rn, rm]
  | .sxtah _ rd rn rm _ => [rd, rn, rm]
  | .uxtab16 _ rd rn rm _ => [rd, rn, rm]
  | .uxtab _ rd rn rm _ => [rd, rn, rm]
  | .uxtah _ rd rn rm _ => [rd, rn, rm]
  | .sxtb16 _ rd rm _ => [rd, rm]
  | .sxtb _ rd rm _ => [rd, rm]
  | .sxth _ rd rm _ => [rd, rm]
  | .uxtb16 _ rd rm _ => [rd, rm]
  | .uxtb _ rd rm _ => [rd, rm]
  | .uxth _ rd rm _ => [rd, rm]
  | .sel _ rd rn rm => [rd, rn, rm]
  | .sadd16 _ rd rn rm => [rd, rn, rm]
  | .saddsubx _ rd rn rm => [rd, rn, rm]
  | .ssubaddx _ rd rn rm => [rd, rn, rm]
  | .ssub16 _ rd rn rm => [rd, rn, rm]
  | .sadd8 _ rd rn rm => [rd, rn, rm]
  | .ssub8 _ rd rn rm => [rd, rn, rm]
  | .qadd16 _ rd rn rm => [rd, rn, rm]
  | .qaddsubx _ rd rn rm => [rd, rn, rm]
  | .qsubaddx _ rd rn rm => [rd, rn, rm]
  | .qsub16 _ rd rn rm => [rd, rn, rm]
  | .qadd8 _ rd rn rm => [rd, rn, rm]
  | .qsub8 _ rd rn rm => [rd, rn, rm]
  | .shadd16 _ rd rn rm => [rd, rn, rm]
  | .shaddsubx _ rd rn rm => [rd, rn, rm]
  | .shsubaddx _ rd rn rm => [rd, rn, rm]
  | .shsub16 _ rd rn rm => [rd, rn, rm]
  | .shadd8 _ rd rn rm => [rd, rn, rm]
  | .shsub8 _ rd rn rm => [rd, rn, rm]
  | .uadd16 _ rd rn rm => [rd, rn, rm]
  | .uaddsubx _ rd rn rm => [rd, rn, rm]
  | .usubaddx _ rd rn rm => [rd, rn, rm]
  | .usub16 _ rd rn rm => [rd, rn, rm]
  | .uadd8 _ rd rn rm => [rd, rn, rm]
  | .usub8 _ rd rn rm => [rd, rn, rm]
  | .uqadd16 _ rd rn rm => [rd, rn, rm]
  | .uqaddsubx _ rd rn rm => [rd, rn, rm]
  | .uqsubaddx _ rd rn rm => [rd, rn, rm]
  | .uqsub16 _ rd rn rm => [rd, rn, rm]
  | .uqadd8 _ rd rn rm => [rd, rn, rm]
  | .uqsub8 _ rd rn rm => [rd, rn, rm]
  | .uhadd16 _ rd rn rm => [rd, rn, rm]
  | .uhaddsubx _ rd rn rm => [rd, rn, rm]
  | .uhsubaddx _ rd rn rm => [rd, rn, rm]
  | .uhsub16 _ rd rn rm => [rd, rn, rm]
  | .uhadd8 _ rd rn rm => [rd, rn, rm]
  | .uhsub8 _ rd rn rm => [rd, rn, rm]
  | .smuad _ _ rd rm rs => [rd, rm, rs]
  | .smlad _ _ rd rm rs rn => [rd, rm, rs, rn]
  | .smusd _ _ rd rm rs => [rd, rm, rs]
  | .smlsd _ _ rd rm rs rn => [rd, rm, rs, rn]
  | .smlald _ _ rdLo rdHi rm rs => [rdLo, rdHi, rm, rs]
  | .smlsld _ _ rdLo rdHi rm rs => [rdLo, rdHi, rm, rs]
  | .smmul _ _ rd rm rs => [rd, rm, rs]
  | .smmla _ _ rd rm rs rn => [rd, rm, rs, rn]
  | .smmls _ _ rd rm rs rn => [rd, rm, rs, rn]
  | .ssat _ rd _ rm _ _ => [rd, rm]
  | .usat _ rd _ rm _ _ => [rd, rm]
  | .ssat16 _ rd _ rm => [rd, rm]
  | .usat16 _ rd _ rm => [rd, rm]
  | .usad8 _ rd rm rs => [rd, rm, rs]
  | .usada8 _ rd rm rs rn => [rd, rm, rs, rn]
  | .pkhbt _ rd rn rm _ => [rd, rn, rm]
  | .pkhtb _ rd rn rm _ => [rd, rn, rm]
  | .rev _ rd rm => [rd, rm]
  | .rev16 _ rd rm => [rd, rm]
  | .revsh _ rd rm => [rd, rm]

/-- The registers an instruction writes: `Rd`, or `RdLo` and `RdHi` (R22). -/
def Instr.destinations : Instr → List RegNum
  | .sxtab16 _ rd _ _ _ => [rd]
  | .sxtab _ rd _ _ _ => [rd]
  | .sxtah _ rd _ _ _ => [rd]
  | .uxtab16 _ rd _ _ _ => [rd]
  | .uxtab _ rd _ _ _ => [rd]
  | .uxtah _ rd _ _ _ => [rd]
  | .sxtb16 _ rd _ _ => [rd]
  | .sxtb _ rd _ _ => [rd]
  | .sxth _ rd _ _ => [rd]
  | .uxtb16 _ rd _ _ => [rd]
  | .uxtb _ rd _ _ => [rd]
  | .uxth _ rd _ _ => [rd]
  | .sel _ rd _ _ => [rd]
  | .sadd16 _ rd _ _ => [rd]
  | .saddsubx _ rd _ _ => [rd]
  | .ssubaddx _ rd _ _ => [rd]
  | .ssub16 _ rd _ _ => [rd]
  | .sadd8 _ rd _ _ => [rd]
  | .ssub8 _ rd _ _ => [rd]
  | .qadd16 _ rd _ _ => [rd]
  | .qaddsubx _ rd _ _ => [rd]
  | .qsubaddx _ rd _ _ => [rd]
  | .qsub16 _ rd _ _ => [rd]
  | .qadd8 _ rd _ _ => [rd]
  | .qsub8 _ rd _ _ => [rd]
  | .shadd16 _ rd _ _ => [rd]
  | .shaddsubx _ rd _ _ => [rd]
  | .shsubaddx _ rd _ _ => [rd]
  | .shsub16 _ rd _ _ => [rd]
  | .shadd8 _ rd _ _ => [rd]
  | .shsub8 _ rd _ _ => [rd]
  | .uadd16 _ rd _ _ => [rd]
  | .uaddsubx _ rd _ _ => [rd]
  | .usubaddx _ rd _ _ => [rd]
  | .usub16 _ rd _ _ => [rd]
  | .uadd8 _ rd _ _ => [rd]
  | .usub8 _ rd _ _ => [rd]
  | .uqadd16 _ rd _ _ => [rd]
  | .uqaddsubx _ rd _ _ => [rd]
  | .uqsubaddx _ rd _ _ => [rd]
  | .uqsub16 _ rd _ _ => [rd]
  | .uqadd8 _ rd _ _ => [rd]
  | .uqsub8 _ rd _ _ => [rd]
  | .uhadd16 _ rd _ _ => [rd]
  | .uhaddsubx _ rd _ _ => [rd]
  | .uhsubaddx _ rd _ _ => [rd]
  | .uhsub16 _ rd _ _ => [rd]
  | .uhadd8 _ rd _ _ => [rd]
  | .uhsub8 _ rd _ _ => [rd]
  | .smuad _ _ rd _ _ => [rd]
  | .smlad _ _ rd _ _ _ => [rd]
  | .smusd _ _ rd _ _ => [rd]
  | .smlsd _ _ rd _ _ _ => [rd]
  | .smlald _ _ rdLo rdHi _ _ => [rdLo, rdHi]
  | .smlsld _ _ rdLo rdHi _ _ => [rdLo, rdHi]
  | .smmul _ _ rd _ _ => [rd]
  | .smmla _ _ rd _ _ _ => [rd]
  | .smmls _ _ rd _ _ _ => [rd]
  | .ssat _ rd _ _ _ _ => [rd]
  | .usat _ rd _ _ _ _ => [rd]
  | .ssat16 _ rd _ _ => [rd]
  | .usat16 _ rd _ _ => [rd]
  | .usad8 _ rd _ _ => [rd]
  | .usada8 _ rd _ _ _ => [rd]
  | .pkhbt _ rd _ _ _ => [rd]
  | .pkhtb _ rd _ _ _ => [rd]
  | .rev _ rd _ => [rd]
  | .rev16 _ rd _ => [rd]
  | .revsh _ rd _ => [rd]

/-- No register field the instruction uses holds 15 (R53). -/
def Instr.noR15 (i : Instr) : Bool := i.registers.all (· != 15)

/-- The two destinations of SMLALD and SMLSLD are different registers (R203). -/
def Instr.distinctDestinations (i : Instr) : Bool :=
  match i.destinations with
  | [lo, hi] => hi != lo
  | _ => true

/-- The instructions that have a defined effect (R52, R53, R203). -/
def Instr.wellFormed (i : Instr) : Bool := i.noR15 && i.distinctDestinations

end Sys2Proof
end

