-- ==== Sys2Proof/Decode.lean ====
section
/-! DEFINITION. Decoding, total on every word and rejecting by name (R50 to R58), then the encoder, written from the formats of
R51 and the encodings of `spec/opcode_table.json`. A decoded instruction may still name register 15: that is refused when it
executes (R52, R53). -/

namespace Sys2Proof

/-- Why a word is no instruction (R54, R57). -/
inductive DecodeReject where
  /-- Bits 31-28 are `0b1111` (R54). -/
  | unconditionalSpace
  /-- No row of the opcode table matches (R57). -/
  | notInOpcodeTable
deriving DecidableEq, Repr

/-- A row of the opcode table (R56): a word matches it when `w AND mask = value` and, where `marker` names the low bit of a
4-bit field, that field is not 15 (R55). -/
structure OpRow where
  /-- The row's mnemonic. -/
  mnemonic : Mnemonic
  /-- The column "match". -/
  value : Word
  /-- The column "mask". -/
  mask : Word
  /-- The low bit of the field of the column "constraint", if there is one. -/
  marker : Option Nat := none
deriving DecidableEq, Repr

/-- The field `w[lo+3:lo]`. -/
def nibbleAt (w : Word) (lo : Nat) : BitVec 4 := w.extractLsb' lo 4

/-- `w` matches a row (R55). -/
def OpRow.matchesWord (r : OpRow) (w : Word) : Bool :=
  w &&& r.mask == r.value &&
  match r.marker with
  | none => true
  | some lo => nibbleAt w lo != 15

/-- The rows of format EXT (R56). -/
def extendRows : List OpRow := [
  ⟨.sxtab16, 0x06800070, 0x0FF003F0, some 16⟩,
  ⟨.sxtab, 0x06A00070, 0x0FF003F0, some 16⟩,
  ⟨.sxtah, 0x06B00070, 0x0FF003F0, some 16⟩,
  ⟨.uxtab16, 0x06C00070, 0x0FF003F0, some 16⟩,
  ⟨.uxtab, 0x06E00070, 0x0FF003F0, some 16⟩,
  ⟨.uxtah, 0x06F00070, 0x0FF003F0, some 16⟩,
  ⟨.sxtb16, 0x068F0070, 0x0FFF03F0, none⟩,
  ⟨.sxtb, 0x06AF0070, 0x0FFF03F0, none⟩,
  ⟨.sxth, 0x06BF0070, 0x0FFF03F0, none⟩,
  ⟨.uxtb16, 0x06CF0070, 0x0FFF03F0, none⟩,
  ⟨.uxtb, 0x06EF0070, 0x0FFF03F0, none⟩,
  ⟨.uxth, 0x06FF0070, 0x0FFF03F0, none⟩]

/-- The rows of format SEL (R56). -/
def selectRows : List OpRow := [
  ⟨.sel, 0x06800FB0, 0x0FF00FF0, none⟩]

/-- The rows of format PAS (R56). -/
def parallelRows : List OpRow := [
  ⟨.sadd16, 0x06100F10, 0x0FF00FF0, none⟩,
  ⟨.saddsubx, 0x06100F30, 0x0FF00FF0, none⟩,
  ⟨.ssubaddx, 0x06100F50, 0x0FF00FF0, none⟩,
  ⟨.ssub16, 0x06100F70, 0x0FF00FF0, none⟩,
  ⟨.sadd8, 0x06100F90, 0x0FF00FF0, none⟩,
  ⟨.ssub8, 0x06100FF0, 0x0FF00FF0, none⟩,
  ⟨.qadd16, 0x06200F10, 0x0FF00FF0, none⟩,
  ⟨.qaddsubx, 0x06200F30, 0x0FF00FF0, none⟩,
  ⟨.qsubaddx, 0x06200F50, 0x0FF00FF0, none⟩,
  ⟨.qsub16, 0x06200F70, 0x0FF00FF0, none⟩,
  ⟨.qadd8, 0x06200F90, 0x0FF00FF0, none⟩,
  ⟨.qsub8, 0x06200FF0, 0x0FF00FF0, none⟩,
  ⟨.shadd16, 0x06300F10, 0x0FF00FF0, none⟩,
  ⟨.shaddsubx, 0x06300F30, 0x0FF00FF0, none⟩,
  ⟨.shsubaddx, 0x06300F50, 0x0FF00FF0, none⟩,
  ⟨.shsub16, 0x06300F70, 0x0FF00FF0, none⟩,
  ⟨.shadd8, 0x06300F90, 0x0FF00FF0, none⟩,
  ⟨.shsub8, 0x06300FF0, 0x0FF00FF0, none⟩,
  ⟨.uadd16, 0x06500F10, 0x0FF00FF0, none⟩,
  ⟨.uaddsubx, 0x06500F30, 0x0FF00FF0, none⟩,
  ⟨.usubaddx, 0x06500F50, 0x0FF00FF0, none⟩,
  ⟨.usub16, 0x06500F70, 0x0FF00FF0, none⟩,
  ⟨.uadd8, 0x06500F90, 0x0FF00FF0, none⟩,
  ⟨.usub8, 0x06500FF0, 0x0FF00FF0, none⟩,
  ⟨.uqadd16, 0x06600F10, 0x0FF00FF0, none⟩,
  ⟨.uqaddsubx, 0x06600F30, 0x0FF00FF0, none⟩,
  ⟨.uqsubaddx, 0x06600F50, 0x0FF00FF0, none⟩,
  ⟨.uqsub16, 0x06600F70, 0x0FF00FF0, none⟩,
  ⟨.uqadd8, 0x06600F90, 0x0FF00FF0, none⟩,
  ⟨.uqsub8, 0x06600FF0, 0x0FF00FF0, none⟩,
  ⟨.uhadd16, 0x06700F10, 0x0FF00FF0, none⟩,
  ⟨.uhaddsubx, 0x06700F30, 0x0FF00FF0, none⟩,
  ⟨.uhsubaddx, 0x06700F50, 0x0FF00FF0, none⟩,
  ⟨.uhsub16, 0x06700F70, 0x0FF00FF0, none⟩,
  ⟨.uhadd8, 0x06700F90, 0x0FF00FF0, none⟩,
  ⟨.uhsub8, 0x06700FF0, 0x0FF00FF0, none⟩]

/-- The rows of format MUL (R56). -/
def multiplyRows : List OpRow := [
  ⟨.smuad, 0x0700F010, 0x0FF0F0D0, none⟩,
  ⟨.smlad, 0x07000010, 0x0FF000D0, some 12⟩,
  ⟨.smusd, 0x0700F050, 0x0FF0F0D0, none⟩,
  ⟨.smlsd, 0x07000050, 0x0FF000D0, some 12⟩,
  ⟨.smlald, 0x07400010, 0x0FF000D0, none⟩,
  ⟨.smlsld, 0x07400050, 0x0FF000D0, none⟩,
  ⟨.smmul, 0x0750F010, 0x0FF0F0D0, none⟩,
  ⟨.smmla, 0x07500010, 0x0FF000D0, some 12⟩,
  ⟨.smmls, 0x075000D0, 0x0FF000D0, none⟩]

/-- The rows of format SAT (R56). -/
def saturateRows : List OpRow := [
  ⟨.ssat, 0x06A00010, 0x0FE00030, none⟩,
  ⟨.usat, 0x06E00010, 0x0FE00030, none⟩]

/-- The rows of format SAT16 (R56). -/
def saturate16Rows : List OpRow := [
  ⟨.ssat16, 0x06A00F30, 0x0FF00FF0, none⟩,
  ⟨.usat16, 0x06E00F30, 0x0FF00FF0, none⟩]

/-- The rows of format USAD (R56). -/
def absDiffRows : List OpRow := [
  ⟨.usad8, 0x0780F010, 0x0FF0F0F0, none⟩,
  ⟨.usada8, 0x07800010, 0x0FF000F0, some 12⟩]

/-- The rows of format PKH (R56). -/
def packRows : List OpRow := [
  ⟨.pkhbt, 0x06800010, 0x0FF00070, none⟩,
  ⟨.pkhtb, 0x06800050, 0x0FF00070, none⟩]

/-- The rows of format REV (R56). -/
def reverseRows : List OpRow := [
  ⟨.rev, 0x06BF0F30, 0x0FFF0FF0, none⟩,
  ⟨.rev16, 0x06BF0FB0, 0x0FFF0FF0, none⟩,
  ⟨.revsh, 0x06FF0FB0, 0x0FFF0FF0, none⟩]

/-- The opcode table: 69 rows, in the order of R56. -/
def opcodeTable : List OpRow :=
  extendRows ++ selectRows ++ parallelRows ++ multiplyRows ++ saturateRows ++ saturate16Rows ++ absDiffRows ++ packRows ++
    reverseRows

/-- The condition of a field value (R29); `0b1111` is none (R54). -/
def Cond.ofBits (b : BitVec 4) : Option Cond :=
  match b.toNat with
  | 0 => some .eq
  | 1 => some .ne
  | 2 => some .cs
  | 3 => some .cc
  | 4 => some .mi
  | 5 => some .pl
  | 6 => some .vs
  | 7 => some .vc
  | 8 => some .hi
  | 9 => some .ls
  | 10 => some .ge
  | 11 => some .lt
  | 12 => some .gt
  | 13 => some .le
  | 14 => some .al
  | _ => none

/-- The instruction of a row, its operands read from the fields of the word (R51, R58). -/
def buildInstr (m : Mnemonic) (c : Cond) (w : Word) : Instr :=
  let b19 := nibbleAt w 16
  let b15 := nibbleAt w 12
  let b11 := nibbleAt w 8
  let b3 := nibbleAt w 0
  let rot : BitVec 2 := w.extractLsb' 10 2
  let bit5 := w.getLsbD 5
  let shiftImm : BitVec 5 := w.extractLsb' 7 5
  let sh : ShiftType := if w.getLsbD 6 then .asr else .lsl
  match m with
  | .sxtab16 => .sxtab16 c b15 b19 b3 rot
  | .sxtab => .sxtab c b15 b19 b3 rot
  | .sxtah => .sxtah c b15 b19 b3 rot
  | .uxtab16 => .uxtab16 c b15 b19 b3 rot
  | .uxtab => .uxtab c b15 b19 b3 rot
  | .uxtah => .uxtah c b15 b19 b3 rot
  | .sxtb16 => .sxtb16 c b15 b3 rot
  | .sxtb => .sxtb c b15 b3 rot
  | .sxth => .sxth c b15 b3 rot
  | .uxtb16 => .uxtb16 c b15 b3 rot
  | .uxtb => .uxtb c b15 b3 rot
  | .uxth => .uxth c b15 b3 rot
  | .sel => .sel c b15 b19 b3
  | .sadd16 => .sadd16 c b15 b19 b3
  | .saddsubx => .saddsubx c b15 b19 b3
  | .ssubaddx => .ssubaddx c b15 b19 b3
  | .ssub16 => .ssub16 c b15 b19 b3
  | .sadd8 => .sadd8 c b15 b19 b3
  | .ssub8 => .ssub8 c b15 b19 b3
  | .qadd16 => .qadd16 c b15 b19 b3
  | .qaddsubx => .qaddsubx c b15 b19 b3
  | .qsubaddx => .qsubaddx c b15 b19 b3
  | .qsub16 => .qsub16 c b15 b19 b3
  | .qadd8 => .qadd8 c b15 b19 b3
  | .qsub8 => .qsub8 c b15 b19 b3
  | .shadd16 => .shadd16 c b15 b19 b3
  | .shaddsubx => .shaddsubx c b15 b19 b3
  | .shsubaddx => .shsubaddx c b15 b19 b3
  | .shsub16 => .shsub16 c b15 b19 b3
  | .shadd8 => .shadd8 c b15 b19 b3
  | .shsub8 => .shsub8 c b15 b19 b3
  | .uadd16 => .uadd16 c b15 b19 b3
  | .uaddsubx => .uaddsubx c b15 b19 b3
  | .usubaddx => .usubaddx c b15 b19 b3
  | .usub16 => .usub16 c b15 b19 b3
  | .uadd8 => .uadd8 c b15 b19 b3
  | .usub8 => .usub8 c b15 b19 b3
  | .uqadd16 => .uqadd16 c b15 b19 b3
  | .uqaddsubx => .uqaddsubx c b15 b19 b3
  | .uqsubaddx => .uqsubaddx c b15 b19 b3
  | .uqsub16 => .uqsub16 c b15 b19 b3
  | .uqadd8 => .uqadd8 c b15 b19 b3
  | .uqsub8 => .uqsub8 c b15 b19 b3
  | .uhadd16 => .uhadd16 c b15 b19 b3
  | .uhaddsubx => .uhaddsubx c b15 b19 b3
  | .uhsubaddx => .uhsubaddx c b15 b19 b3
  | .uhsub16 => .uhsub16 c b15 b19 b3
  | .uhadd8 => .uhadd8 c b15 b19 b3
  | .uhsub8 => .uhsub8 c b15 b19 b3
  | .smuad => .smuad c bit5 b19 b3 b11
  | .smlad => .smlad c bit5 b19 b3 b11 b15
  | .smusd => .smusd c bit5 b19 b3 b11
  | .smlsd => .smlsd c bit5 b19 b3 b11 b15
  | .smlald => .smlald c bit5 b15 b19 b3 b11
  | .smlsld => .smlsld c bit5 b15 b19 b3 b11
  | .smmul => .smmul c bit5 b19 b3 b11
  | .smmla => .smmla c bit5 b19 b3 b11 b15
  | .smmls => .smmls c bit5 b19 b3 b11 b15
  | .ssat => .ssat c b15 (w.extractLsb' 16 5) b3 sh shiftImm
  | .usat => .usat c b15 (w.extractLsb' 16 5) b3 sh shiftImm
  | .ssat16 => .ssat16 c b15 b19 b3
  | .usat16 => .usat16 c b15 b19 b3
  | .usad8 => .usad8 c b19 b3 b11
  | .usada8 => .usada8 c b19 b3 b11 b15
  | .pkhbt => .pkhbt c b15 b19 b3 shiftImm
  | .pkhtb => .pkhtb c b15 b19 b3 shiftImm
  | .rev => .rev c b15 b3
  | .rev16 => .rev16 c b15 b3
  | .revsh => .revsh c b15 b3

/-- Decoding (R52, R55): the condition field first, then the row that matches. -/
def decode (w : Word) : Except DecodeReject Instr :=
  match Cond.ofBits (nibbleAt w 28) with
  | none => .error .unconditionalSpace
  | some c =>
    match opcodeTable.find? (·.matchesWord w) with
    | none => .error .notInOpcodeTable
    | some r => .ok (buildInstr r.mnemonic c w)

/-- Decoding on a core of a given architecture version (R1, R321, U11): below version 6 no row of the table exists
(log entry 8). -/
def decodeFor (cfg : Config) (w : Word) : Except DecodeReject Instr :=
  match decode w with
  | .ok i => if 6 ≤ cfg.archVersion then .ok i else .error .notInOpcodeTable
  | .error e => .error e

/-- The instruction word of the four bytes at `pc`, `pc+1`, `pc+2`, `pc+3`, in the fetch's byte order (R41). -/
def wordOfBytes (bigEndian : Bool) (b0 b1 b2 b3 : Byte) : Word :=
  if bigEndian then b0 ++ b1 ++ b2 ++ b3 else b3 ++ b2 ++ b1 ++ b0

/-- Decoding from bytes: every instruction is four bytes long (R50), so the rest of the list follows it; none where fewer
than four bytes are given. -/
def decodeBytes (bigEndian : Bool) : List Byte → Option (Except DecodeReject Instr × List Byte)
  | b0 :: b1 :: b2 :: b3 :: rest => some (decode (wordOfBytes bigEndian b0 b1 b2 b3), rest)
  | _ => none

/-- The instruction the decoder reads from an instruction whose low `nbits` bits are `w` and whose other bits are 0, laid out
as the hardware stores it at reset's byte order (log entry 14). -/
def decodeTableWord (nbits w : Nat) : Option Instr :=
  let v : Word := BitVec.ofNat 32 (w % 2 ^ nbits)
  let b := fun i => v.extractLsb' (8 * i) 8
  match decodeBytes false [b 0, b 1, b 2, b 3] with
  | some (.ok i, _) => some i
  | _ => none

/-! ### The encoder -/

/-- The field value of a condition (R29). -/
def Cond.bits : Cond → BitVec 4
  | .eq => 0
  | .ne => 1
  | .cs => 2
  | .cc => 3
  | .mi => 4
  | .pl => 5
  | .vs => 6
  | .vc => 7
  | .hi => 8
  | .ls => 9
  | .ge => 10
  | .lt => 11
  | .gt => 12
  | .le => 13
  | .al => 14

/-- The value of bit 6 of format SAT (R51). -/
def ShiftType.bit : ShiftType → BitVec 1
  | .lsl => 0
  | .asr => 1

/-- A one-bit field. -/
def flagBit (b : Bool) : BitVec 1 := BitVec.ofBool b

/-- Format EXT (R51). -/
def extWord (c : Cond) (op : BitVec 3) (rn rd : RegNum) (rot : BitVec 2) (rm : RegNum) : Word :=
  c.bits ++ 0b01101#5 ++ op ++ rn ++ rd ++ rot ++ 0b000111#6 ++ rm

/-- Format SEL (R51). -/
def selWord (c : Cond) (rn rd rm : RegNum) : Word :=
  c.bits ++ 0b01101000#8 ++ rn ++ rd ++ 0b11111011#8 ++ rm

/-- Format PAS (R51, R130). -/
def pasWord (c : Cond) (op1 : BitVec 3) (rn rd : RegNum) (op2 : BitVec 3) (rm : RegNum) : Word :=
  c.bits ++ 0b01100#5 ++ op1 ++ rn ++ rd ++ 0b1111#4 ++ op2 ++ 0b1#1 ++ rm

/-- Format MUL (R51, R200): bits 19-16 hold `Rd` or `RdHi`, bits 15-12 `Rn`, `RdLo` or the marker. -/
def mulWord (c : Cond) (op1 : BitVec 3) (b19 b15 rs : RegNum) (op2 : BitVec 2) (xr : Bool) (rm : RegNum) : Word :=
  c.bits ++ 0b01110#5 ++ op1 ++ b19 ++ b15 ++ rs ++ op2 ++ flagBit xr ++ 0b1#1 ++ rm

/-- Format SAT (R51): `op` is bits 27-21. -/
def satWord (c : Cond) (op : BitVec 7) (satImm : BitVec 5) (rd : RegNum) (shiftImm : BitVec 5) (sh : ShiftType) (rm : RegNum) :
    Word :=
  c.bits ++ op ++ satImm ++ rd ++ shiftImm ++ sh.bit ++ 0b01#2 ++ rm

/-- Format SAT16 (R51): `op` is bits 27-21. -/
def sat16Word (c : Cond) (op : BitVec 7) (satImm : BitVec 4) (rd rm : RegNum) : Word :=
  c.bits ++ op ++ 0b0#1 ++ satImm ++ rd ++ 0b11110011#8 ++ rm

/-- Format USAD (R51, R242): bits 15-12 hold `Rn` or the marker. -/
def usadWord (c : Cond) (rd b15 rs rm : RegNum) : Word :=
  c.bits ++ 0b01111000#8 ++ rd ++ b15 ++ rs ++ 0b0001#4 ++ rm

/-- Format PKH (R51, R252): `op` is bits 6-4. -/
def pkhWord (c : Cond) (rn rd : RegNum) (shiftImm : BitVec 5) (op : BitVec 3) (rm : RegNum) : Word :=
  c.bits ++ 0b01101000#8 ++ rn ++ rd ++ shiftImm ++ op ++ rm

/-- Format REV (R51, R263): `opA` is bit 22 and `opB` bit 7. -/
def revWord (c : Cond) (opA : BitVec 1) (rd : RegNum) (opB : BitVec 1) (rm : RegNum) : Word :=
  c.bits ++ 0b01101#5 ++ opA ++ 0b111111#6 ++ rd ++ 0b1111#4 ++ opB ++ 0b011#3 ++ rm

/-- The word of an instruction (R51, R56). -/
def encode : Instr → Word
  | .sxtab16 c rd rn rm rot => extWord c 0b000 rn rd rot rm
  | .sxtab c rd rn rm rot => extWord c 0b010 rn rd rot rm
  | .sxtah c rd rn rm rot => extWord c 0b011 rn rd rot rm
  | .uxtab16 c rd rn rm rot => extWord c 0b100 rn rd rot rm
  | .uxtab c rd rn rm rot => extWord c 0b110 rn rd rot rm
  | .uxtah c rd rn rm rot => extWord c 0b111 rn rd rot rm
  | .sxtb16 c rd rm rot => extWord c 0b000 15 rd rot rm
  | .sxtb c rd rm rot => extWord c 0b010 15 rd rot rm
  | .sxth c rd rm rot => extWord c 0b011 15 rd rot rm
  | .uxtb16 c rd rm rot => extWord c 0b100 15 rd rot rm
  | .uxtb c rd rm rot => extWord c 0b110 15 rd rot rm
  | .uxth c rd rm rot => extWord c 0b111 15 rd rot rm
  | .sel c rd rn rm => selWord c rn rd rm
  | .sadd16 c rd rn rm => pasWord c 0b001 rn rd 0b000 rm
  | .saddsubx c rd rn rm => pasWord c 0b001 rn rd 0b001 rm
  | .ssubaddx c rd rn rm => pasWord c 0b001 rn rd 0b010 rm
  | .ssub16 c rd rn rm => pasWord c 0b001 rn rd 0b011 rm
  | .sadd8 c rd rn rm => pasWord c 0b001 rn rd 0b100 rm
  | .ssub8 c rd rn rm => pasWord c 0b001 rn rd 0b111 rm
  | .qadd16 c rd rn rm => pasWord c 0b010 rn rd 0b000 rm
  | .qaddsubx c rd rn rm => pasWord c 0b010 rn rd 0b001 rm
  | .qsubaddx c rd rn rm => pasWord c 0b010 rn rd 0b010 rm
  | .qsub16 c rd rn rm => pasWord c 0b010 rn rd 0b011 rm
  | .qadd8 c rd rn rm => pasWord c 0b010 rn rd 0b100 rm
  | .qsub8 c rd rn rm => pasWord c 0b010 rn rd 0b111 rm
  | .shadd16 c rd rn rm => pasWord c 0b011 rn rd 0b000 rm
  | .shaddsubx c rd rn rm => pasWord c 0b011 rn rd 0b001 rm
  | .shsubaddx c rd rn rm => pasWord c 0b011 rn rd 0b010 rm
  | .shsub16 c rd rn rm => pasWord c 0b011 rn rd 0b011 rm
  | .shadd8 c rd rn rm => pasWord c 0b011 rn rd 0b100 rm
  | .shsub8 c rd rn rm => pasWord c 0b011 rn rd 0b111 rm
  | .uadd16 c rd rn rm => pasWord c 0b101 rn rd 0b000 rm
  | .uaddsubx c rd rn rm => pasWord c 0b101 rn rd 0b001 rm
  | .usubaddx c rd rn rm => pasWord c 0b101 rn rd 0b010 rm
  | .usub16 c rd rn rm => pasWord c 0b101 rn rd 0b011 rm
  | .uadd8 c rd rn rm => pasWord c 0b101 rn rd 0b100 rm
  | .usub8 c rd rn rm => pasWord c 0b101 rn rd 0b111 rm
  | .uqadd16 c rd rn rm => pasWord c 0b110 rn rd 0b000 rm
  | .uqaddsubx c rd rn rm => pasWord c 0b110 rn rd 0b001 rm
  | .uqsubaddx c rd rn rm => pasWord c 0b110 rn rd 0b010 rm
  | .uqsub16 c rd rn rm => pasWord c 0b110 rn rd 0b011 rm
  | .uqadd8 c rd rn rm => pasWord c 0b110 rn rd 0b100 rm
  | .uqsub8 c rd rn rm => pasWord c 0b110 rn rd 0b111 rm
  | .uhadd16 c rd rn rm => pasWord c 0b111 rn rd 0b000 rm
  | .uhaddsubx c rd rn rm => pasWord c 0b111 rn rd 0b001 rm
  | .uhsubaddx c rd rn rm => pasWord c 0b111 rn rd 0b010 rm
  | .uhsub16 c rd rn rm => pasWord c 0b111 rn rd 0b011 rm
  | .uhadd8 c rd rn rm => pasWord c 0b111 rn rd 0b100 rm
  | .uhsub8 c rd rn rm => pasWord c 0b111 rn rd 0b111 rm
  | .smuad c x rd rm rs => mulWord c 0b000 rd 15 rs 0b00 x rm
  | .smlad c x rd rm rs rn => mulWord c 0b000 rd rn rs 0b00 x rm
  | .smusd c x rd rm rs => mulWord c 0b000 rd 15 rs 0b01 x rm
  | .smlsd c x rd rm rs rn => mulWord c 0b000 rd rn rs 0b01 x rm
  | .smlald c x rdLo rdHi rm rs => mulWord c 0b100 rdHi rdLo rs 0b00 x rm
  | .smlsld c x rdLo rdHi rm rs => mulWord c 0b100 rdHi rdLo rs 0b01 x rm
  | .smmul c r rd rm rs => mulWord c 0b101 rd 15 rs 0b00 r rm
  | .smmla c r rd rm rs rn => mulWord c 0b101 rd rn rs 0b00 r rm
  | .smmls c r rd rm rs rn => mulWord c 0b101 rd rn rs 0b11 r rm
  | .ssat c rd satImm rm sh shiftImm => satWord c 0b0110101 satImm rd shiftImm sh rm
  | .usat c rd satImm rm sh shiftImm => satWord c 0b0110111 satImm rd shiftImm sh rm
  | .ssat16 c rd satImm rm => sat16Word c 0b0110101 satImm rd rm
  | .usat16 c rd satImm rm => sat16Word c 0b0110111 satImm rd rm
  | .usad8 c rd rm rs => usadWord c rd 15 rs rm
  | .usada8 c rd rm rs rn => usadWord c rd rn rs rm
  | .pkhbt c rd rn rm shiftImm => pkhWord c rn rd shiftImm 0b001 rm
  | .pkhtb c rd rn rm shiftImm => pkhWord c rn rd shiftImm 0b101 rm
  | .rev c rd rm => revWord c 0 rd 0 rm
  | .rev16 c rd rm => revWord c 0 rd 1 rm
  | .revsh c rd rm => revWord c 1 rd 1 rm

end Sys2Proof
end

