-- ==== Sys2Proof/Machine/Memory.lean ====
section
/-! DEFINITION. The named operations over instruction memory (R40, R41, R48) and the placing of program text, which is the
environment's act before launch (R320, R321). No instruction reads or writes memory (R43). -/

namespace Sys2Proof.Machine

/-- The byte at an address, or none where nothing is mapped (R40, R42; log entry 6). -/
def Memory.readByte : Memory → Nat → Option Byte
  | [], _ => none
  | (a, b) :: rest, k => if a = k then some b else Memory.readByte rest k

/-- The environment maps one byte: the cell is put in its place, and a cell already at that address is replaced. A mapped
byte always differs from what an unlisted address reads as, so no write removes a cell. -/
def Memory.writeByte : Memory → Word → Byte → Memory
  | [], k, v => [(k.toNat, v)]
  | (a, b) :: rest, k, v =>
    if k.toNat < a then (k.toNat, v) :: (a, b) :: rest
    else if k.toNat = a then (a, v) :: rest
    else (a, b) :: Memory.writeByte rest k v

/-- The canonical form: addresses strictly rising and inside the 32-bit address space (R40). -/
def Memory.wf : Memory → Bool
  | [] => true
  | [(a, _)] => a < 2 ^ 32
  | (a, _) :: (b, y) :: rest => a < b && Memory.wf ((b, y) :: rest)

/-- Byte `i` of an instruction word as it lies in memory at `pc + i`, in the fetch's byte order (R41). -/
def storedByte (bigEndian : Bool) (w : Word) (i : Nat) : Byte :=
  if bigEndian then w.extractLsb' (8 * (3 - i)) 8 else w.extractLsb' (8 * i) 8

/-- The cells of one instruction word placed at an address (R41). -/
def wordCells (bigEndian : Bool) (at_ : Nat) (w : Word) : Memory :=
  [(at_, storedByte bigEndian w 0), (at_ + 1, storedByte bigEndian w 1),
   (at_ + 2, storedByte bigEndian w 2), (at_ + 3, storedByte bigEndian w 3)]

/-- The cells of PROGRAM, a list of words, from an address on (R40). -/
def programCells (bigEndian : Bool) : Nat → List Word → Memory
  | _, [] => []
  | a, w :: rest => wordCells bigEndian a w ++ programCells bigEndian (a + 4) rest

end Sys2Proof.Machine
end

