-- ==== Sys2Proof/Machine/Fetch.lean ====
section
/-! DEFINITION. The program text and the fetch (R40 to R42, R322), the launch (R31, R320, R321), and the placing of one word
where the next fetch reads it. -/

namespace Sys2Proof.Machine

/-- `length(PROGRAM)`: the memory is the program text and nothing else (R40). -/
def State.programLength (s : State) : Nat := s.mem.length / 4

/-- `END_PC = ENTRY_PC + 4 * length(PROGRAM)` (R6, R40). -/
def State.endPc (s : State) : Nat := s.entryPc.toNat + 4 * s.programLength

/-- The run is over (R42, R322). -/
def State.runOver (s : State) : Bool := s.pc.toNat == s.endPc

/-- A fetch is admitted: `ENTRY_PC <= pc < END_PC` and `pc` is a multiple of 4 (R42). -/
def State.fetchAdmitted (s : State) : Bool :=
  s.entryPc.toNat ≤ s.pc.toNat && s.pc.toNat < s.endPc && s.pc.toNat % 4 == 0

/-- The word fetched at `pc`, where the fetch is admitted and the four bytes are mapped (R41, R42). -/
def State.fetchWord (s : State) : Option Word :=
  if s.fetchAdmitted then
    match s.mem.readByte s.pc.toNat, s.mem.readByte (s.pc.toNat + 1), s.mem.readByte (s.pc.toNat + 2),
        s.mem.readByte (s.pc.toNat + 3) with
    | some b0, some b1, some b2, some b3 => some (wordOfBytes s.cfg.fetchBigEndian b0 b1 b2 b3)
    | _, _, _, _ => none
  else none

/-- The refusal of a word that is no instruction (R303). -/
def refusalOf : DecodeReject → Refusal
  | .unconditionalSpace => .unconditionalSpace
  | .notInOpcodeTable => .notInOpcodeTable

/-- The launch (R31, R320): the environment chooses every register and flag, places PROGRAM at `ENTRY_PC` in the fetch's byte
order, and sets `pc = ENTRY_PC`. -/
def State.launch (cfg : Config) (regs : Vector Word 15) (flags : Cpsr) (entryPc : Word) (program : List Word) : State where
  regs := regs
  pc := entryPc
  cpsr := flags
  mem := programCells cfg.fetchBigEndian entryPc.toNat program
  entryPc := entryPc
  cfg := cfg

/-- One word placed over the four bytes at `pc`. -/
def overwriteWord (m : Memory) (bigEndian : Bool) (pc : Word) (w : Word) : Memory :=
  (((m.writeByte pc (storedByte bigEndian w 0)).writeByte (pc + 1) (storedByte bigEndian w 1)).writeByte (pc + 2)
    (storedByte bigEndian w 2)).writeByte (pc + 3) (storedByte bigEndian w 3)

/-- One word placed where the next fetch reads it: over the word at `pc` where a fetch is admitted there; else as the whole
program, at `pc` (log entry 14). -/
def State.placeWord (s : State) (w : Word) : State :=
  if s.fetchAdmitted then { s with mem := overwriteWord s.mem s.cfg.fetchBigEndian s.pc w }
  else { s with entryPc := s.pc, mem := programCells s.cfg.fetchBigEndian s.pc.toNat [w] }

end Sys2Proof.Machine
end

