-- ==== Sys2Proof/Machine/Step.lean ====
section
/-! DEFINITION. One step of the machine (R42, R52, R303, R322), and the word placed for the next step. -/

namespace Sys2Proof.Machine

/-- One step: the end of the run (R322, log entry 5), the fetch (R41, R42), the decoding (R52, R54, R57), then the instruction,
whose meaning tests the register fields and the condition and advances `pc` (R52). -/
def step (s : State) : Host.Outcome State Fault Refusal :=
  if s.runOver then .fault .endOfRun
  else
    match s.fetchWord with
    | none => .refused .fetchOutOfProgram
    | some w =>
      match decodeFor s.cfg w with
      | .error e => .refused (refusalOf e)
      | .ok i => exec i s

/-- The state with the instruction whose low `nbits` bits are `w`, and whose other bits are 0, placed where the next step
fetches it: it stands for the environment's placing of the program (R320, log entries 4 and 14). -/
def State.withFetchWord (s : State) (nbits w : Nat) : State := s.placeWord (BitVec.ofNat 32 (w % 2 ^ nbits))

end Sys2Proof.Machine
end

