-- ==== Sys2Proof/Machine/Assembly.lean ====
section
/-! DEFINITION. The printer: an instruction in the source's spelling and operand order (R59, R60). The step does not use it.
`, ROR #0`, `, LSL #0` and the suffix `AL` are left out, since the words are the same (R59; log entry 17). -/

namespace Sys2Proof.Machine

/-- The source's spelling of a mnemonic (R60). -/
def mnemonicName : Mnemonic → String
  | .sxtab16 => "SXTAB16"
  | .sxtab => "SXTAB"
  | .sxtah => "SXTAH"
  | .uxtab16 => "UXTAB16"
  | .uxtab => "UXTAB"
  | .uxtah => "UXTAH"
  | .sxtb16 => "SXTB16"
  | .sxtb => "SXTB"
  | .sxth => "SXTH"
  | .uxtb16 => "UXTB16"
  | .uxtb => "UXTB"
  | .uxth => "UXTH"
  | .sel => "SEL"
  | .sadd16 => "SADD16"
  | .saddsubx => "SADDSUBX"
  | .ssubaddx => "SSUBADDX"
  | .ssub16 => "SSUB16"
  | .sadd8 => "SADD8"
  | .ssub8 => "SSUB8"
  | .qadd16 => "QADD16"
  | .qaddsubx => "QADDSUBX"
  | .qsubaddx => "QSUBADDX"
  | .qsub16 => "QSUB16"
  | .qadd8 => "QADD8"
  | .qsub8 => "QSUB8"
  | .shadd16 => "SHADD16"
  | .shaddsubx => "SHADDSUBX"
  | .shsubaddx => "SHSUBADDX"
  | .shsub16 => "SHSUB16"
  | .shadd8 => "SHADD8"
  | .shsub8 => "SHSUB8"
  | .uadd16 => "UADD16"
  | .uaddsubx => "UADDSUBX"
  | .usubaddx => "USUBADDX"
  | .usub16 => "USUB16"
  | .uadd8 => "UADD8"
  | .usub8 => "USUB8"
  | .uqadd16 => "UQADD16"
  | .uqaddsubx => "UQADDSUBX"
  | .uqsubaddx => "UQSUBADDX"
  | .uqsub16 => "UQSUB16"
  | .uqadd8 => "UQADD8"
  | .uqsub8 => "UQSUB8"
  | .uhadd16 => "UHADD16"
  | .uhaddsubx => "UHADDSUBX"
  | .uhsubaddx => "UHSUBADDX"
  | .uhsub16 => "UHSUB16"
  | .uhadd8 => "UHADD8"
  | .uhsub8 => "UHSUB8"
  | .smuad => "SMUAD"
  | .smlad => "SMLAD"
  | .smusd => "SMUSD"
  | .smlsd => "SMLSD"
  | .smlald => "SMLALD"
  | .smlsld => "SMLSLD"
  | .smmul => "SMMUL"
  | .smmla => "SMMLA"
  | .smmls => "SMMLS"
  | .ssat => "SSAT"
  | .usat => "USAT"
  | .ssat16 => "SSAT16"
  | .usat16 => "USAT16"
  | .usad8 => "USAD8"
  | .usada8 => "USADA8"
  | .pkhbt => "PKHBT"
  | .pkhtb => "PKHTB"
  | .rev => "REV"
  | .rev16 => "REV16"
  | .revsh => "REVSH"

/-- The condition suffix (R29, R59): of the two spellings of AL, the empty one (DESIGN CHOICE, log entry 17). -/
def condSuffix : Cond → String
  | .eq => "EQ"
  | .ne => "NE"
  | .cs => "CS"
  | .cc => "CC"
  | .mi => "MI"
  | .pl => "PL"
  | .vs => "VS"
  | .vc => "VC"
  | .hi => "HI"
  | .ls => "LS"
  | .ge => "GE"
  | .lt => "LT"
  | .gt => "GT"
  | .le => "LE"
  | .al => ""

/-- `Rk` (R20, R59). -/
def regName (r : RegNum) : String := "R" ++ toString r.toNat

/-- Operands separated by commas. -/
def operandList (xs : List String) : String := ", ".intercalate xs

/-- `, ROR #imm` (R58, R59). -/
def rorSuffix (rot : BitVec 2) : String := if rot = 0 then "" else ", ROR #" ++ toString (8 * rot.toNat)

/-- `, LSL #imm` (R58, R59). -/
def lslSuffix (n : Nat) : String := if n = 0 then "" else ", LSL #" ++ toString n

/-- `, LSL #imm` or `, ASR #imm`, a field of 0 being ASR #32 (R58, R59). -/
def satShiftSuffix (sh : ShiftType) (shiftImm : BitVec 5) : String :=
  match sh with
  | .lsl => lslSuffix shiftImm.toNat
  | .asr => ", ASR #" ++ toString (if shiftImm = 0 then 32 else shiftImm.toNat)

/-- `#range` (R59, R221 to R224). -/
def rangeText (n : Nat) : String := "#" ++ toString n

/-- The `X` or `R` of a multiply (R59). -/
def variantLetter : Instr → String
  | .smuad _ x .. => if x then "X" else ""
  | .smlad _ x .. => if x then "X" else ""
  | .smusd _ x .. => if x then "X" else ""
  | .smlsd _ x .. => if x then "X" else ""
  | .smlald _ x .. => if x then "X" else ""
  | .smlsld _ x .. => if x then "X" else ""
  | .smmul _ r .. => if r then "R" else ""
  | .smmla _ r .. => if r then "R" else ""
  | .smmls _ r .. => if r then "R" else ""
  | _ => ""

/-- The operands of an instruction in the order of its syntax line (R59). The `#range` of SSAT and SSAT16 is `sat_imm + 1` (R59).
That of USAT and USAT16 is the field value, which R222 states for the default of `USAT_BOUND`; DESIGN CHOICE: it is the field
value under `two_pow_field_plus_1` too, where no rule fixes it (log entry 18). -/
def operandText (i : Instr) : String :=
  match i with
  | .sxtab16 _ _ _ _ rot => operandList (i.registers.map regName) ++ rorSuffix rot
  | .sxtab _ _ _ _ rot => operandList (i.registers.map regName) ++ rorSuffix rot
  | .sxtah _ _ _ _ rot => operandList (i.registers.map regName) ++ rorSuffix rot
  | .uxtab16 _ _ _ _ rot => operandList (i.registers.map regName) ++ rorSuffix rot
  | .uxtab _ _ _ _ rot => operandList (i.registers.map regName) ++ rorSuffix rot
  | .uxtah _ _ _ _ rot => operandList (i.registers.map regName) ++ rorSuffix rot
  | .sxtb16 _ _ _ rot => operandList (i.registers.map regName) ++ rorSuffix rot
  | .sxtb _ _ _ rot => operandList (i.registers.map regName) ++ rorSuffix rot
  | .sxth _ _ _ rot => operandList (i.registers.map regName) ++ rorSuffix rot
  | .uxtb16 _ _ _ rot => operandList (i.registers.map regName) ++ rorSuffix rot
  | .uxtb _ _ _ rot => operandList (i.registers.map regName) ++ rorSuffix rot
  | .uxth _ _ _ rot => operandList (i.registers.map regName) ++ rorSuffix rot
  | .ssat _ rd satImm rm sh shiftImm => operandList [regName rd, rangeText (ssatWidth satImm), regName rm] ++ satShiftSuffix sh shiftImm
  | .usat _ rd satImm rm sh shiftImm => operandList [regName rd, rangeText satImm.toNat, regName rm] ++ satShiftSuffix sh shiftImm
  | .ssat16 _ rd satImm rm => operandList [regName rd, rangeText (ssatWidth satImm), regName rm]
  | .usat16 _ rd satImm rm => operandList [regName rd, rangeText satImm.toNat, regName rm]
  | .pkhbt _ _ _ _ shiftImm => operandList (i.registers.map regName) ++ lslSuffix shiftImm.toNat
  | .pkhtb _ _ _ _ shiftImm => operandList (i.registers.map regName) ++ ", ASR #" ++ toString (pkhtbShift shiftImm)
  | i => operandList (i.registers.map regName)

/-- An instruction in the source's assembler syntax (R59). -/
def printInstr (i : Instr) : String :=
  mnemonicName i.mnemonic ++ variantLetter i ++ condSuffix i.cond ++ " " ++ operandText i

end Sys2Proof.Machine
end

