-- ==== Sys2Proof/Safety.lean ====
section
/-! DEFINITION. The terms claims are stated in: a state of a run (R40, R42, R320, R322), how much of the run is left, a number
of steps, an instruction that has completed (R52), and the flag writers of R28. -/

namespace Sys2Proof.Machine

/-- A state between two steps of a run that the environment launched as R320 and R321 ask: PROGRAM occupies the bytes from
`ENTRY_PC` to `END_PC - 1` and nothing else is mapped (R40), `ENTRY_PC` is a multiple of 4 and `END_PC <= 0xFFFFFFFC` (R6),
and `pc` is a multiple of 4 from `ENTRY_PC` to `END_PC` (R42). Registers, flags and parameters are any. -/
abbrev State.InRun (s : State) : Prop :=
  s.entryPc.toNat % 4 = 0 ∧ s.mem.length % 4 = 0 ∧ s.mem.map Prod.fst = List.range' s.entryPc.toNat s.mem.length ∧
    s.endPc ≤ 0xFFFFFFFC ∧ s.pc.toNat % 4 = 0 ∧ s.entryPc.toNat ≤ s.pc.toNat ∧ s.pc.toNat ≤ s.endPc

/-- How many instructions of PROGRAM are not yet executed (R322). -/
def State.remaining (s : State) : Nat := (s.endPc - s.pc.toNat) / 4

/-- `k` steps, ending early at a fault or a refusal. -/
def runSteps (k : Nat) (s : State) : Result := Sys2Proof.core.run k s

/-- The end of R52 for an instruction with condition `c` whose body turns `s` into `t`: if the condition passes the body's
registers and flags stand, otherwise nothing changes, and `pc` advances by 4 either way. -/
def State.retired (s : State) (c : Cond) (t : State) : State :=
  { (if conditionPassed c s.cpsr then t else s) with pc := s.pc + 4 }

/-- The twelve instructions that write `GE[3:0]` (R25, R28). -/
def geWriters : List Mnemonic :=
  [.sadd16, .saddsubx, .ssubaddx, .ssub16, .sadd8, .ssub8, .uadd16, .uaddsubx, .usubaddx, .usub16, .uadd8, .usub8]

/-- The instructions that may set Q (R26, R28), under each reading of `Q_DUAL_SUB` (R209). -/
def qWriters (q : QDualSub) : List Mnemonic :=
  [.ssat, .usat, .ssat16, .usat16, .smuad, .smlad] ++
    match q with
    | .armArm => [.smlsd]
    | .sourceLiteral => [.smlsld]

end Sys2Proof.Machine
end

