-- ==== Sys2Proof/Certificates/Slice0/Obligations.lean ====
section
/-! DEFINITION. The statements for the provers. `State.retired` is the end of R52: the condition, then `pc + 4`. General
registers are numbered by `regNum`, R0 to R14; 15 is `RegisterFifteenRefused`. -/

open Sys2Proof Sys2Proof.Machine

/-- R102 to R107, with the common steps of R100: each completes for every condition, register, rotation and state. The lane
and extraction rules carry the spec's general-knowledge mark (log entry 11). -/
def Obligations.ExtendWithAdditionResults : Prop :=
    (∀ (c : Cond) (d n m : GPR) (rot : BitVec 2) (s : State),
      let x := s.regs[n]
      let v := ror32 s.regs[m] (8 * rot.toNat)
      let put := fun (r : Word) => { s with regs := s.regs.set d r }
      exec (.sxtab16 c (regNum d) (regNum n) (regNum m) rot) s =
        .next (s.retired c (put (halves (trunc 16 (((x.extractLsb' 16 16).toNat : Int) + (v.extractLsb' 16 8).toInt))
          (trunc 16 (((x.extractLsb' 0 16).toNat : Int) + (v.extractLsb' 0 8).toInt))))) ∧
      exec (.sxtab c (regNum d) (regNum n) (regNum m) rot) s =
        .next (s.retired c (put (trunc 32 ((x.toNat : Int) + (v.extractLsb' 0 8).toInt)))) ∧
      exec (.sxtah c (regNum d) (regNum n) (regNum m) rot) s =
        .next (s.retired c (put (trunc 32 ((x.toNat : Int) + (v.extractLsb' 0 16).toInt)))) ∧
      exec (.uxtab16 c (regNum d) (regNum n) (regNum m) rot) s =
        .next (s.retired c (put (halves (trunc 16 (((x.extractLsb' 16 16).toNat : Int) + (v.extractLsb' 16 8).toNat))
          (trunc 16 (((x.extractLsb' 0 16).toNat : Int) + (v.extractLsb' 0 8).toNat))))) ∧
      exec (.uxtab c (regNum d) (regNum n) (regNum m) rot) s =
        .next (s.retired c (put (trunc 32 ((x.toNat : Int) + (v.extractLsb' 0 8).toNat)))) ∧
      exec (.uxtah c (regNum d) (regNum n) (regNum m) rot) s =
        .next (s.retired c (put (trunc 32 ((x.toNat : Int) + (v.extractLsb' 0 16).toNat))))) ∧
    (∀ (w : Word) (c : Cond), w.extractLsb' 28 4 = c.bits →
      let rd : RegNum := w.extractLsb' 12 4
      let rn : RegNum := w.extractLsb' 16 4
      let rm : RegNum := w.extractLsb' 0 4
      let rot : BitVec 2 := w.extractLsb' 10 2
      (w &&& 0x0FF003F0 = 0x06800070 → rn ≠ 15 → decode w = .ok (.sxtab16 c rd rn rm rot)) ∧
      (w &&& 0x0FF003F0 = 0x06A00070 → rn ≠ 15 → decode w = .ok (.sxtab c rd rn rm rot)) ∧
      (w &&& 0x0FF003F0 = 0x06B00070 → rn ≠ 15 → decode w = .ok (.sxtah c rd rn rm rot)) ∧
      (w &&& 0x0FF003F0 = 0x06C00070 → rn ≠ 15 → decode w = .ok (.uxtab16 c rd rn rm rot)) ∧
      (w &&& 0x0FF003F0 = 0x06E00070 → rn ≠ 15 → decode w = .ok (.uxtab c rd rn rm rot)) ∧
      (w &&& 0x0FF003F0 = 0x06F00070 → rn ≠ 15 → decode w = .ok (.uxtah c rd rn rm rot))) ∧
    (∀ (c : Cond) (rd rn rm : RegNum) (rot : BitVec 2),
      printInstr (.sxtab16 c rd rn rm rot) =
        "SXTAB16" ++ condSuffix c ++ " " ++ operandList [regName rd, regName rn, regName rm] ++ rorSuffix rot ∧
      printInstr (.sxtab c rd rn rm rot) =
        "SXTAB" ++ condSuffix c ++ " " ++ operandList [regName rd, regName rn, regName rm] ++ rorSuffix rot ∧
      printInstr (.sxtah c rd rn rm rot) =
        "SXTAH" ++ condSuffix c ++ " " ++ operandList [regName rd, regName rn, regName rm] ++ rorSuffix rot ∧
      printInstr (.uxtab16 c rd rn rm rot) =
        "UXTAB16" ++ condSuffix c ++ " " ++ operandList [regName rd, regName rn, regName rm] ++ rorSuffix rot ∧
      printInstr (.uxtab c rd rn rm rot) =
        "UXTAB" ++ condSuffix c ++ " " ++ operandList [regName rd, regName rn, regName rm] ++ rorSuffix rot ∧
      printInstr (.uxtah c rd rn rm rot) =
        "UXTAH" ++ condSuffix c ++ " " ++ operandList [regName rd, regName rn, regName rm] ++ rorSuffix rot)

/-- R108 to R113. The unsigned three are written in the second form the rules give, `rotated AND mask` (log entry 11). -/
def Obligations.ExtendWithoutAdditionResults : Prop :=
    (∀ (c : Cond) (d m : GPR) (rot : BitVec 2) (s : State),
      let v := ror32 s.regs[m] (8 * rot.toNat)
      let put := fun (r : Word) => { s with regs := s.regs.set d r }
      exec (.sxtb16 c (regNum d) (regNum m) rot) s =
        .next (s.retired c (put (((v.extractLsb' 16 8).signExtend 16) ++ ((v.extractLsb' 0 8).signExtend 16)))) ∧
      exec (.sxtb c (regNum d) (regNum m) rot) s =
        .next (s.retired c (put ((v.extractLsb' 0 8).signExtend 32))) ∧
      exec (.sxth c (regNum d) (regNum m) rot) s =
        .next (s.retired c (put ((v.extractLsb' 0 16).signExtend 32))) ∧
      exec (.uxtb16 c (regNum d) (regNum m) rot) s =
        .next (s.retired c (put (v &&& 0x00FF00FF))) ∧
      exec (.uxtb c (regNum d) (regNum m) rot) s =
        .next (s.retired c (put (v &&& 0x000000FF))) ∧
      exec (.uxth c (regNum d) (regNum m) rot) s =
        .next (s.retired c (put (v &&& 0x0000FFFF)))) ∧
    (∀ (w : Word) (c : Cond), w.extractLsb' 28 4 = c.bits →
      let rd : RegNum := w.extractLsb' 12 4
      let rm : RegNum := w.extractLsb' 0 4
      let rot : BitVec 2 := w.extractLsb' 10 2
      (w &&& 0x0FFF03F0 = 0x068F0070 → decode w = .ok (.sxtb16 c rd rm rot)) ∧
      (w &&& 0x0FFF03F0 = 0x06AF0070 → decode w = .ok (.sxtb c rd rm rot)) ∧
      (w &&& 0x0FFF03F0 = 0x06BF0070 → decode w = .ok (.sxth c rd rm rot)) ∧
      (w &&& 0x0FFF03F0 = 0x06CF0070 → decode w = .ok (.uxtb16 c rd rm rot)) ∧
      (w &&& 0x0FFF03F0 = 0x06EF0070 → decode w = .ok (.uxtb c rd rm rot)) ∧
      (w &&& 0x0FFF03F0 = 0x06FF0070 → decode w = .ok (.uxth c rd rm rot))) ∧
    (∀ (c : Cond) (rd rm : RegNum) (rot : BitVec 2),
      printInstr (.sxtb16 c rd rm rot) =
        "SXTB16" ++ condSuffix c ++ " " ++ operandList [regName rd, regName rm] ++ rorSuffix rot ∧
      printInstr (.sxtb c rd rm rot) =
        "SXTB" ++ condSuffix c ++ " " ++ operandList [regName rd, regName rm] ++ rorSuffix rot ∧
      printInstr (.sxth c rd rm rot) =
        "SXTH" ++ condSuffix c ++ " " ++ operandList [regName rd, regName rm] ++ rorSuffix rot ∧
      printInstr (.uxtb16 c rd rm rot) =
        "UXTB16" ++ condSuffix c ++ " " ++ operandList [regName rd, regName rm] ++ rorSuffix rot ∧
      printInstr (.uxtb c rd rm rot) =
        "UXTB" ++ condSuffix c ++ " " ++ operandList [regName rd, regName rm] ++ rorSuffix rot ∧
      printInstr (.uxth c rd rm rot) =
        "UXTH" ++ condSuffix c ++ " " ++ operandList [regName rd, regName rm] ++ rorSuffix rot)

/-- R120. The flags are read and left as they were. -/
def Obligations.SelectBytesResult : Prop :=
    (∀ (c : Cond) (d n m : GPR) (s : State),
      let pick := fun (i : Nat) =>
        if s.cpsr.ge.getLsbD i then s.regs[n].extractLsb' (8 * i) 8 else s.regs[m].extractLsb' (8 * i) 8
      exec (.sel c (regNum d) (regNum n) (regNum m)) s =
        .next (s.retired c { s with regs := s.regs.set d (pick 3 ++ pick 2 ++ pick 1 ++ pick 0) })) ∧
    (∀ (w : Word) (c : Cond), w.extractLsb' 28 4 = c.bits →
      let rd : RegNum := w.extractLsb' 12 4
      let rn : RegNum := w.extractLsb' 16 4
      let rm : RegNum := w.extractLsb' 0 4
      (w &&& 0x0FF00FF0 = 0x06800FB0 → decode w = .ok (.sel c rd rn rm))) ∧
    (∀ (c : Cond) (rd rn rm : RegNum),
      printInstr (.sel c rd rn rm) =
        "SEL" ++ condSuffix c ++ " " ++ operandList [regName rd, regName rn, regName rm])

/-- R132 to R137. The lane pairings other than SADD16's carry the spec's general-knowledge mark (log entry 11). -/
def Obligations.SignedParallelResults : Prop :=
    (∀ (c : Cond) (d n m : GPR) (s : State),
      let a1 := (hi16 s.regs[n]).toInt
      let a0 := (lo16 s.regs[n]).toInt
      let b1 := (hi16 s.regs[m]).toInt
      let b0 := (lo16 s.regs[m]).toInt
      let a := fun (i : Nat) => (byteAt s.regs[n] i).toInt
      let b := fun (i : Nat) => (byteAt s.regs[m] i).toInt
      let pair := fun (t : Bool) => if t then 0b11#2 else 0b00#2
      let one := fun (t : Bool) => BitVec.ofBool t
      let put := fun (v : Word) (g : BitVec 4) => { s with regs := s.regs.set d v, cpsr := { s.cpsr with ge := g } }
      exec (.sadd16 c (regNum d) (regNum n) (regNum m)) s =
        .next (s.retired c (put (halves (trunc 16 (a1 + b1)) (trunc 16 (a0 + b0)))
          (pair (0 ≤ a1 + b1) ++ pair (0 ≤ a0 + b0)))) ∧
      exec (.saddsubx c (regNum d) (regNum n) (regNum m)) s =
        .next (s.retired c (put (halves (trunc 16 (a1 + b0)) (trunc 16 (a0 - b1)))
          (pair (0 ≤ a1 + b0) ++ pair (0 ≤ a0 - b1)))) ∧
      exec (.ssubaddx c (regNum d) (regNum n) (regNum m)) s =
        .next (s.retired c (put (halves (trunc 16 (a1 - b0)) (trunc 16 (a0 + b1)))
          (pair (0 ≤ a1 - b0) ++ pair (0 ≤ a0 + b1)))) ∧
      exec (.ssub16 c (regNum d) (regNum n) (regNum m)) s =
        .next (s.retired c (put (halves (trunc 16 (a1 - b1)) (trunc 16 (a0 - b0)))
          (pair (0 ≤ a1 - b1) ++ pair (0 ≤ a0 - b0)))) ∧
      exec (.sadd8 c (regNum d) (regNum n) (regNum m)) s =
        .next (s.retired c (put (bytes (trunc 8 (a 3 + b 3)) (trunc 8 (a 2 + b 2)) (trunc 8 (a 1 + b 1)) (trunc 8 (a 0 + b 0)))
          (one (0 ≤ a 3 + b 3) ++ one (0 ≤ a 2 + b 2) ++ one (0 ≤ a 1 + b 1) ++ one (0 ≤ a 0 + b 0)))) ∧
      exec (.ssub8 c (regNum d) (regNum n) (regNum m)) s =
        .next (s.retired c (put (bytes (trunc 8 (a 3 - b 3)) (trunc 8 (a 2 - b 2)) (trunc 8 (a 1 - b 1)) (trunc 8 (a 0 - b 0)))
          (one (0 ≤ a 3 - b 3) ++ one (0 ≤ a 2 - b 2) ++ one (0 ≤ a 1 - b 1) ++ one (0 ≤ a 0 - b 0))))) ∧
    (∀ (w : Word) (c : Cond), w.extractLsb' 28 4 = c.bits →
      let rd : RegNum := w.extractLsb' 12 4
      let rn : RegNum := w.extractLsb' 16 4
      let rm : RegNum := w.extractLsb' 0 4
      (w &&& 0x0FF00FF0 = 0x06100F10 → decode w = .ok (.sadd16 c rd rn rm)) ∧
      (w &&& 0x0FF00FF0 = 0x06100F30 → decode w = .ok (.saddsubx c rd rn rm)) ∧
      (w &&& 0x0FF00FF0 = 0x06100F50 → decode w = .ok (.ssubaddx c rd rn rm)) ∧
      (w &&& 0x0FF00FF0 = 0x06100F70 → decode w = .ok (.ssub16 c rd rn rm)) ∧
      (w &&& 0x0FF00FF0 = 0x06100F90 → decode w = .ok (.sadd8 c rd rn rm)) ∧
      (w &&& 0x0FF00FF0 = 0x06100FF0 → decode w = .ok (.ssub8 c rd rn rm))) ∧
    (∀ (c : Cond) (rd rn rm : RegNum),
      printInstr (.sadd16 c rd rn rm) =
        "SADD16" ++ condSuffix c ++ " " ++ operandList [regName rd, regName rn, regName rm] ∧
      printInstr (.saddsubx c rd rn rm) =
        "SADDSUBX" ++ condSuffix c ++ " " ++ operandList [regName rd, regName rn, regName rm] ∧
      printInstr (.ssubaddx c rd rn rm) =
        "SSUBADDX" ++ condSuffix c ++ " " ++ operandList [regName rd, regName rn, regName rm] ∧
      printInstr (.ssub16 c rd rn rm) =
        "SSUB16" ++ condSuffix c ++ " " ++ operandList [regName rd, regName rn, regName rm] ∧
      printInstr (.sadd8 c rd rn rm) =
        "SADD8" ++ condSuffix c ++ " " ++ operandList [regName rd, regName rn, regName rm] ∧
      printInstr (.ssub8 c rd rn rm) =
        "SSUB8" ++ condSuffix c ++ " " ++ operandList [regName rd, regName rn, regName rm])

/-- R138 to R143 (log entry 11). -/
def Obligations.SignedSaturatingParallelResults : Prop :=
    (∀ (c : Cond) (d n m : GPR) (s : State),
      let a1 := (hi16 s.regs[n]).toInt
      let a0 := (lo16 s.regs[n]).toInt
      let b1 := (hi16 s.regs[m]).toInt
      let b0 := (lo16 s.regs[m]).toInt
      let a := fun (i : Nat) => (byteAt s.regs[n] i).toInt
      let b := fun (i : Nat) => (byteAt s.regs[m] i).toInt
      let four := fun (lane : Nat → Byte) => bytes (lane 3) (lane 2) (lane 1) (lane 0)
      let put := fun (v : Word) => { s with regs := s.regs.set d v }
      exec (.qadd16 c (regNum d) (regNum n) (regNum m)) s =
        .next (s.retired c (put (halves (trunc 16 (signedSat (a1 + b1) 16)) (trunc 16 (signedSat (a0 + b0) 16))))) ∧
      exec (.qaddsubx c (regNum d) (regNum n) (regNum m)) s =
        .next (s.retired c (put (halves (trunc 16 (signedSat (a1 + b0) 16)) (trunc 16 (signedSat (a0 - b1) 16))))) ∧
      exec (.qsubaddx c (regNum d) (regNum n) (regNum m)) s =
        .next (s.retired c (put (halves (trunc 16 (signedSat (a1 - b0) 16)) (trunc 16 (signedSat (a0 + b1) 16))))) ∧
      exec (.qsub16 c (regNum d) (regNum n) (regNum m)) s =
        .next (s.retired c (put (halves (trunc 16 (signedSat (a1 - b1) 16)) (trunc 16 (signedSat (a0 - b0) 16))))) ∧
      exec (.qadd8 c (regNum d) (regNum n) (regNum m)) s =
        .next (s.retired c (put (four fun i => trunc 8 (signedSat (a i + b i) 8)))) ∧
      exec (.qsub8 c (regNum d) (regNum n) (regNum m)) s =
        .next (s.retired c (put (four fun i => trunc 8 (signedSat (a i - b i) 8))))) ∧
    (∀ (w : Word) (c : Cond), w.extractLsb' 28 4 = c.bits →
      let rd : RegNum := w.extractLsb' 12 4
      let rn : RegNum := w.extractLsb' 16 4
      let rm : RegNum := w.extractLsb' 0 4
      (w &&& 0x0FF00FF0 = 0x06200F10 → decode w = .ok (.qadd16 c rd rn rm)) ∧
      (w &&& 0x0FF00FF0 = 0x06200F30 → decode w = .ok (.qaddsubx c rd rn rm)) ∧
      (w &&& 0x0FF00FF0 = 0x06200F50 → decode w = .ok (.qsubaddx c rd rn rm)) ∧
      (w &&& 0x0FF00FF0 = 0x06200F70 → decode w = .ok (.qsub16 c rd rn rm)) ∧
      (w &&& 0x0FF00FF0 = 0x06200F90 → decode w = .ok (.qadd8 c rd rn rm)) ∧
      (w &&& 0x0FF00FF0 = 0x06200FF0 → decode w = .ok (.qsub8 c rd rn rm))) ∧
    (∀ (c : Cond) (rd rn rm : RegNum),
      printInstr (.qadd16 c rd rn rm) =
        "QADD16" ++ condSuffix c ++ " " ++ operandList [regName rd, regName rn, regName rm] ∧
      printInstr (.qaddsubx c rd rn rm) =
        "QADDSUBX" ++ condSuffix c ++ " " ++ operandList [regName rd, regName rn, regName rm] ∧
      printInstr (.qsubaddx c rd rn rm) =
        "QSUBADDX" ++ condSuffix c ++ " " ++ operandList [regName rd, regName rn, regName rm] ∧
      printInstr (.qsub16 c rd rn rm) =
        "QSUB16" ++ condSuffix c ++ " " ++ operandList [regName rd, regName rn, regName rm] ∧
      printInstr (.qadd8 c rd rn rm) =
        "QADD8" ++ condSuffix c ++ " " ++ operandList [regName rd, regName rn, regName rm] ∧
      printInstr (.qsub8 c rd rn rm) =
        "QSUB8" ++ condSuffix c ++ " " ++ operandList [regName rd, regName rn, regName rm])

/-- R144 to R149; `/` on integers by 2 is the floor of R8 (log entry 11). That the halved value fits its lane (R144) is
HalvingFitsItsLane. -/
def Obligations.SignedHalvingParallelResults : Prop :=
    (∀ (c : Cond) (d n m : GPR) (s : State),
      let a1 := (hi16 s.regs[n]).toInt
      let a0 := (lo16 s.regs[n]).toInt
      let b1 := (hi16 s.regs[m]).toInt
      let b0 := (lo16 s.regs[m]).toInt
      let a := fun (i : Nat) => (byteAt s.regs[n] i).toInt
      let b := fun (i : Nat) => (byteAt s.regs[m] i).toInt
      let four := fun (lane : Nat → Byte) => bytes (lane 3) (lane 2) (lane 1) (lane 0)
      let put := fun (v : Word) => { s with regs := s.regs.set d v }
      exec (.shadd16 c (regNum d) (regNum n) (regNum m)) s =
        .next (s.retired c (put (halves (trunc 16 ((a1 + b1) / 2)) (trunc 16 ((a0 + b0) / 2))))) ∧
      exec (.shaddsubx c (regNum d) (regNum n) (regNum m)) s =
        .next (s.retired c (put (halves (trunc 16 ((a1 + b0) / 2)) (trunc 16 ((a0 - b1) / 2))))) ∧
      exec (.shsubaddx c (regNum d) (regNum n) (regNum m)) s =
        .next (s.retired c (put (halves (trunc 16 ((a1 - b0) / 2)) (trunc 16 ((a0 + b1) / 2))))) ∧
      exec (.shsub16 c (regNum d) (regNum n) (regNum m)) s =
        .next (s.retired c (put (halves (trunc 16 ((a1 - b1) / 2)) (trunc 16 ((a0 - b0) / 2))))) ∧
      exec (.shadd8 c (regNum d) (regNum n) (regNum m)) s =
        .next (s.retired c (put (four fun i => trunc 8 ((a i + b i) / 2)))) ∧
      exec (.shsub8 c (regNum d) (regNum n) (regNum m)) s =
        .next (s.retired c (put (four fun i => trunc 8 ((a i - b i) / 2))))) ∧
    (∀ (w : Word) (c : Cond), w.extractLsb' 28 4 = c.bits →
      let rd : RegNum := w.extractLsb' 12 4
      let rn : RegNum := w.extractLsb' 16 4
      let rm : RegNum := w.extractLsb' 0 4
      (w &&& 0x0FF00FF0 = 0x06300F10 → decode w = .ok (.shadd16 c rd rn rm)) ∧
      (w &&& 0x0FF00FF0 = 0x06300F30 → decode w = .ok (.shaddsubx c rd rn rm)) ∧
      (w &&& 0x0FF00FF0 = 0x06300F50 → decode w = .ok (.shsubaddx c rd rn rm)) ∧
      (w &&& 0x0FF00FF0 = 0x06300F70 → decode w = .ok (.shsub16 c rd rn rm)) ∧
      (w &&& 0x0FF00FF0 = 0x06300F90 → decode w = .ok (.shadd8 c rd rn rm)) ∧
      (w &&& 0x0FF00FF0 = 0x06300FF0 → decode w = .ok (.shsub8 c rd rn rm))) ∧
    (∀ (c : Cond) (rd rn rm : RegNum),
      printInstr (.shadd16 c rd rn rm) =
        "SHADD16" ++ condSuffix c ++ " " ++ operandList [regName rd, regName rn, regName rm] ∧
      printInstr (.shaddsubx c rd rn rm) =
        "SHADDSUBX" ++ condSuffix c ++ " " ++ operandList [regName rd, regName rn, regName rm] ∧
      printInstr (.shsubaddx c rd rn rm) =
        "SHSUBADDX" ++ condSuffix c ++ " " ++ operandList [regName rd, regName rn, regName rm] ∧
      printInstr (.shsub16 c rd rn rm) =
        "SHSUB16" ++ condSuffix c ++ " " ++ operandList [regName rd, regName rn, regName rm] ∧
      printInstr (.shadd8 c rd rn rm) =
        "SHADD8" ++ condSuffix c ++ " " ++ operandList [regName rd, regName rn, regName rm] ∧
      printInstr (.shsub8 c rd rn rm) =
        "SHSUB8" ++ condSuffix c ++ " " ++ operandList [regName rd, regName rn, regName rm])

/-- R162 to R167 (log entry 11). -/
def Obligations.UnsignedParallelResults : Prop :=
    (∀ (c : Cond) (d n m : GPR) (s : State),
      let a1 := ((hi16 s.regs[n]).toNat : Int)
      let a0 := ((lo16 s.regs[n]).toNat : Int)
      let b1 := ((hi16 s.regs[m]).toNat : Int)
      let b0 := ((lo16 s.regs[m]).toNat : Int)
      let a := fun (i : Nat) => ((byteAt s.regs[n] i).toNat : Int)
      let b := fun (i : Nat) => ((byteAt s.regs[m] i).toNat : Int)
      let pair := fun (t : Bool) => if t then 0b11#2 else 0b00#2
      let one := fun (t : Bool) => BitVec.ofBool t
      let put := fun (v : Word) (g : BitVec 4) => { s with regs := s.regs.set d v, cpsr := { s.cpsr with ge := g } }
      exec (.uadd16 c (regNum d) (regNum n) (regNum m)) s =
        .next (s.retired c (put (halves (trunc 16 (a1 + b1)) (trunc 16 (a0 + b0)))
          (pair (0x10000 ≤ a1 + b1) ++ pair (0x10000 ≤ a0 + b0)))) ∧
      exec (.uaddsubx c (regNum d) (regNum n) (regNum m)) s =
        .next (s.retired c (put (halves (trunc 16 (a1 + b0)) (trunc 16 (a0 - b1)))
          (pair (0x10000 ≤ a1 + b0) ++ pair (0 ≤ a0 - b1)))) ∧
      exec (.usubaddx c (regNum d) (regNum n) (regNum m)) s =
        .next (s.retired c (put (halves (trunc 16 (a1 - b0)) (trunc 16 (a0 + b1)))
          (pair (0 ≤ a1 - b0) ++ pair (0x10000 ≤ a0 + b1)))) ∧
      exec (.usub16 c (regNum d) (regNum n) (regNum m)) s =
        .next (s.retired c (put (halves (trunc 16 (a1 - b1)) (trunc 16 (a0 - b0)))
          (pair (0 ≤ a1 - b1) ++ pair (0 ≤ a0 - b0)))) ∧
      exec (.uadd8 c (regNum d) (regNum n) (regNum m)) s =
        .next (s.retired c (put (bytes (trunc 8 (a 3 + b 3)) (trunc 8 (a 2 + b 2)) (trunc 8 (a 1 + b 1)) (trunc 8 (a 0 + b 0)))
          (one (0x100 ≤ a 3 + b 3) ++ one (0x100 ≤ a 2 + b 2) ++ one (0x100 ≤ a 1 + b 1) ++ one (0x100 ≤ a 0 + b 0)))) ∧
      exec (.usub8 c (regNum d) (regNum n) (regNum m)) s =
        .next (s.retired c (put (bytes (trunc 8 (a 3 - b 3)) (trunc 8 (a 2 - b 2)) (trunc 8 (a 1 - b 1)) (trunc 8 (a 0 - b 0)))
          (one (0 ≤ a 3 - b 3) ++ one (0 ≤ a 2 - b 2) ++ one (0 ≤ a 1 - b 1) ++ one (0 ≤ a 0 - b 0))))) ∧
    (∀ (w : Word) (c : Cond), w.extractLsb' 28 4 = c.bits →
      let rd : RegNum := w.extractLsb' 12 4
      let rn : RegNum := w.extractLsb' 16 4
      let rm : RegNum := w.extractLsb' 0 4
      (w &&& 0x0FF00FF0 = 0x06500F10 → decode w = .ok (.uadd16 c rd rn rm)) ∧
      (w &&& 0x0FF00FF0 = 0x06500F30 → decode w = .ok (.uaddsubx c rd rn rm)) ∧
      (w &&& 0x0FF00FF0 = 0x06500F50 → decode w = .ok (.usubaddx c rd rn rm)) ∧
      (w &&& 0x0FF00FF0 = 0x06500F70 → decode w = .ok (.usub16 c rd rn rm)) ∧
      (w &&& 0x0FF00FF0 = 0x06500F90 → decode w = .ok (.uadd8 c rd rn rm)) ∧
      (w &&& 0x0FF00FF0 = 0x06500FF0 → decode w = .ok (.usub8 c rd rn rm))) ∧
    (∀ (c : Cond) (rd rn rm : RegNum),
      printInstr (.uadd16 c rd rn rm) =
        "UADD16" ++ condSuffix c ++ " " ++ operandList [regName rd, regName rn, regName rm] ∧
      printInstr (.uaddsubx c rd rn rm) =
        "UADDSUBX" ++ condSuffix c ++ " " ++ operandList [regName rd, regName rn, regName rm] ∧
      printInstr (.usubaddx c rd rn rm) =
        "USUBADDX" ++ condSuffix c ++ " " ++ operandList [regName rd, regName rn, regName rm] ∧
      printInstr (.usub16 c rd rn rm) =
        "USUB16" ++ condSuffix c ++ " " ++ operandList [regName rd, regName rn, regName rm] ∧
      printInstr (.uadd8 c rd rn rm) =
        "UADD8" ++ condSuffix c ++ " " ++ operandList [regName rd, regName rn, regName rm] ∧
      printInstr (.usub8 c rd rn rm) =
        "USUB8" ++ condSuffix c ++ " " ++ operandList [regName rd, regName rn, regName rm])

/-- R168 to R173 (log entry 11). -/
def Obligations.UnsignedSaturatingParallelResults : Prop :=
    (∀ (c : Cond) (d n m : GPR) (s : State),
      let a1 := ((hi16 s.regs[n]).toNat : Int)
      let a0 := ((lo16 s.regs[n]).toNat : Int)
      let b1 := ((hi16 s.regs[m]).toNat : Int)
      let b0 := ((lo16 s.regs[m]).toNat : Int)
      let a := fun (i : Nat) => ((byteAt s.regs[n] i).toNat : Int)
      let b := fun (i : Nat) => ((byteAt s.regs[m] i).toNat : Int)
      let four := fun (lane : Nat → Byte) => bytes (lane 3) (lane 2) (lane 1) (lane 0)
      let put := fun (v : Word) => { s with regs := s.regs.set d v }
      exec (.uqadd16 c (regNum d) (regNum n) (regNum m)) s =
        .next (s.retired c (put (halves (trunc 16 (unsignedSat (a1 + b1) 16)) (trunc 16 (unsignedSat (a0 + b0) 16))))) ∧
      exec (.uqaddsubx c (regNum d) (regNum n) (regNum m)) s =
        .next (s.retired c (put (halves (trunc 16 (unsignedSat (a1 + b0) 16)) (trunc 16 (unsignedSat (a0 - b1) 16))))) ∧
      exec (.uqsubaddx c (regNum d) (regNum n) (regNum m)) s =
        .next (s.retired c (put (halves (trunc 16 (unsignedSat (a1 - b0) 16)) (trunc 16 (unsignedSat (a0 + b1) 16))))) ∧
      exec (.uqsub16 c (regNum d) (regNum n) (regNum m)) s =
        .next (s.retired c (put (halves (trunc 16 (unsignedSat (a1 - b1) 16)) (trunc 16 (unsignedSat (a0 - b0) 16))))) ∧
      exec (.uqadd8 c (regNum d) (regNum n) (regNum m)) s =
        .next (s.retired c (put (four fun i => trunc 8 (unsignedSat (a i + b i) 8)))) ∧
      exec (.uqsub8 c (regNum d) (regNum n) (regNum m)) s =
        .next (s.retired c (put (four fun i => trunc 8 (unsignedSat (a i - b i) 8))))) ∧
    (∀ (w : Word) (c : Cond), w.extractLsb' 28 4 = c.bits →
      let rd : RegNum := w.extractLsb' 12 4
      let rn : RegNum := w.extractLsb' 16 4
      let rm : RegNum := w.extractLsb' 0 4
      (w &&& 0x0FF00FF0 = 0x06600F10 → decode w = .ok (.uqadd16 c rd rn rm)) ∧
      (w &&& 0x0FF00FF0 = 0x06600F30 → decode w = .ok (.uqaddsubx c rd rn rm)) ∧
      (w &&& 0x0FF00FF0 = 0x06600F50 → decode w = .ok (.uqsubaddx c rd rn rm)) ∧
      (w &&& 0x0FF00FF0 = 0x06600F70 → decode w = .ok (.uqsub16 c rd rn rm)) ∧
      (w &&& 0x0FF00FF0 = 0x06600F90 → decode w = .ok (.uqadd8 c rd rn rm)) ∧
      (w &&& 0x0FF00FF0 = 0x06600FF0 → decode w = .ok (.uqsub8 c rd rn rm))) ∧
    (∀ (c : Cond) (rd rn rm : RegNum),
      printInstr (.uqadd16 c rd rn rm) =
        "UQADD16" ++ condSuffix c ++ " " ++ operandList [regName rd, regName rn, regName rm] ∧
      printInstr (.uqaddsubx c rd rn rm) =
        "UQADDSUBX" ++ condSuffix c ++ " " ++ operandList [regName rd, regName rn, regName rm] ∧
      printInstr (.uqsubaddx c rd rn rm) =
        "UQSUBADDX" ++ condSuffix c ++ " " ++ operandList [regName rd, regName rn, regName rm] ∧
      printInstr (.uqsub16 c rd rn rm) =
        "UQSUB16" ++ condSuffix c ++ " " ++ operandList [regName rd, regName rn, regName rm] ∧
      printInstr (.uqadd8 c rd rn rm) =
        "UQADD8" ++ condSuffix c ++ " " ++ operandList [regName rd, regName rn, regName rm] ∧
      printInstr (.uqsub8 c rd rn rm) =
        "UQSUB8" ++ condSuffix c ++ " " ++ operandList [regName rd, regName rn, regName rm])

/-- R174 to R179 (log entry 11). -/
def Obligations.UnsignedHalvingParallelResults : Prop :=
    (∀ (c : Cond) (d n m : GPR) (s : State),
      let a1 := ((hi16 s.regs[n]).toNat : Int)
      let a0 := ((lo16 s.regs[n]).toNat : Int)
      let b1 := ((hi16 s.regs[m]).toNat : Int)
      let b0 := ((lo16 s.regs[m]).toNat : Int)
      let a := fun (i : Nat) => ((byteAt s.regs[n] i).toNat : Int)
      let b := fun (i : Nat) => ((byteAt s.regs[m] i).toNat : Int)
      let four := fun (lane : Nat → Byte) => bytes (lane 3) (lane 2) (lane 1) (lane 0)
      let put := fun (v : Word) => { s with regs := s.regs.set d v }
      exec (.uhadd16 c (regNum d) (regNum n) (regNum m)) s =
        .next (s.retired c (put (halves (trunc 16 ((a1 + b1) / 2)) (trunc 16 ((a0 + b0) / 2))))) ∧
      exec (.uhaddsubx c (regNum d) (regNum n) (regNum m)) s =
        .next (s.retired c (put (halves (trunc 16 ((a1 + b0) / 2)) (trunc 16 ((a0 - b1) / 2))))) ∧
      exec (.uhsubaddx c (regNum d) (regNum n) (regNum m)) s =
        .next (s.retired c (put (halves (trunc 16 ((a1 - b0) / 2)) (trunc 16 ((a0 + b1) / 2))))) ∧
      exec (.uhsub16 c (regNum d) (regNum n) (regNum m)) s =
        .next (s.retired c (put (halves (trunc 16 ((a1 - b1) / 2)) (trunc 16 ((a0 - b0) / 2))))) ∧
      exec (.uhadd8 c (regNum d) (regNum n) (regNum m)) s =
        .next (s.retired c (put (four fun i => trunc 8 ((a i + b i) / 2)))) ∧
      exec (.uhsub8 c (regNum d) (regNum n) (regNum m)) s =
        .next (s.retired c (put (four fun i => trunc 8 ((a i - b i) / 2))))) ∧
    (∀ (w : Word) (c : Cond), w.extractLsb' 28 4 = c.bits →
      let rd : RegNum := w.extractLsb' 12 4
      let rn : RegNum := w.extractLsb' 16 4
      let rm : RegNum := w.extractLsb' 0 4
      (w &&& 0x0FF00FF0 = 0x06700F10 → decode w = .ok (.uhadd16 c rd rn rm)) ∧
      (w &&& 0x0FF00FF0 = 0x06700F30 → decode w = .ok (.uhaddsubx c rd rn rm)) ∧
      (w &&& 0x0FF00FF0 = 0x06700F50 → decode w = .ok (.uhsubaddx c rd rn rm)) ∧
      (w &&& 0x0FF00FF0 = 0x06700F70 → decode w = .ok (.uhsub16 c rd rn rm)) ∧
      (w &&& 0x0FF00FF0 = 0x06700F90 → decode w = .ok (.uhadd8 c rd rn rm)) ∧
      (w &&& 0x0FF00FF0 = 0x06700FF0 → decode w = .ok (.uhsub8 c rd rn rm))) ∧
    (∀ (c : Cond) (rd rn rm : RegNum),
      printInstr (.uhadd16 c rd rn rm) =
        "UHADD16" ++ condSuffix c ++ " " ++ operandList [regName rd, regName rn, regName rm] ∧
      printInstr (.uhaddsubx c rd rn rm) =
        "UHADDSUBX" ++ condSuffix c ++ " " ++ operandList [regName rd, regName rn, regName rm] ∧
      printInstr (.uhsubaddx c rd rn rm) =
        "UHSUBADDX" ++ condSuffix c ++ " " ++ operandList [regName rd, regName rn, regName rm] ∧
      printInstr (.uhsub16 c rd rn rm) =
        "UHSUB16" ++ condSuffix c ++ " " ++ operandList [regName rd, regName rn, regName rm] ∧
      printInstr (.uhadd8 c rd rn rm) =
        "UHADD8" ++ condSuffix c ++ " " ++ operandList [regName rd, regName rn, regName rm] ∧
      printInstr (.uhsub8 c rd rn rm) =
        "UHSUB8" ++ condSuffix c ++ " " ++ operandList [regName rd, regName rn, regName rm])

/-- R204 to R207, with the products of R201, the overflow of R208 and the parameter of R209, held in `State.cfg` (log entry
1); log entry 11. -/
def Obligations.DualMultiplyResults : Prop :=
    (∀ (c : Cond) (x : Bool) (d m k n : GPR) (s : State),
      let second := if x then ror32 s.regs[k] 16 else s.regs[k]
      let p1 := (lo16 s.regs[m]).toInt * (lo16 second).toInt
      let p2 := (hi16 s.regs[m]).toInt * (hi16 second).toInt
      let acc := s.regs[n].toInt
      let put := fun (r : Int) (canSetQ : Prop) [Decidable canSetQ] =>
        { s with
          regs := s.regs.set d (trunc 32 r)
          cpsr := { s.cpsr with q := if canSetQ ∧ r ≠ (trunc 32 r).toInt then true else s.cpsr.q } }
      exec (.smuad c x (regNum d) (regNum m) (regNum k)) s = .next (s.retired c (put (p1 + p2) True)) ∧
      exec (.smlad c x (regNum d) (regNum m) (regNum k) (regNum n)) s =
        .next (s.retired c (put (acc + p1 + p2) True)) ∧
      exec (.smusd c x (regNum d) (regNum m) (regNum k)) s = .next (s.retired c (put (p1 - p2) False)) ∧
      exec (.smlsd c x (regNum d) (regNum m) (regNum k) (regNum n)) s =
        .next (s.retired c (put (acc + p1 - p2) (s.cfg.qDualSub = .armArm)))) ∧
    (∀ (w : Word) (c : Cond), w.extractLsb' 28 4 = c.bits →
      let x : Bool := w.getLsbD 5
      let rd : RegNum := w.extractLsb' 16 4
      let rm : RegNum := w.extractLsb' 0 4
      let rs : RegNum := w.extractLsb' 8 4
      let rn : RegNum := w.extractLsb' 12 4
      (w &&& 0x0FF0F0D0 = 0x0700F010 → decode w = .ok (.smuad c x rd rm rs)) ∧
      (w &&& 0x0FF000D0 = 0x07000010 → rn ≠ 15 → decode w = .ok (.smlad c x rd rm rs rn)) ∧
      (w &&& 0x0FF0F0D0 = 0x0700F050 → decode w = .ok (.smusd c x rd rm rs)) ∧
      (w &&& 0x0FF000D0 = 0x07000050 → rn ≠ 15 → decode w = .ok (.smlsd c x rd rm rs rn))) ∧
    (∀ (c : Cond) (x : Bool) (rd rm rs : RegNum),
      printInstr (.smuad c x rd rm rs) =
        "SMUAD" ++ (if x then "X" else "") ++ condSuffix c ++ " " ++ operandList [regName rd, regName rm, regName rs]) ∧
    (∀ (c : Cond) (x : Bool) (rd rm rs rn : RegNum),
      printInstr (.smlad c x rd rm rs rn) =
        "SMLAD" ++ (if x then "X" else "") ++ condSuffix c ++ " " ++
          operandList [regName rd, regName rm, regName rs, regName rn]) ∧
    (∀ (c : Cond) (x : Bool) (rd rm rs : RegNum),
      printInstr (.smusd c x rd rm rs) =
        "SMUSD" ++ (if x then "X" else "") ++ condSuffix c ++ " " ++ operandList [regName rd, regName rm, regName rs]) ∧
    (∀ (c : Cond) (x : Bool) (rd rm rs rn : RegNum),
      printInstr (.smlsd c x rd rm rs rn) =
        "SMLSD" ++ (if x then "X" else "") ++ condSuffix c ++ " " ++
          operandList [regName rd, regName rm, regName rs, regName rn])

/-- R210 and R211, with the products of R201 and the parameter of R209, held in `State.cfg` (log entry 1); log entry 11. -/
def Obligations.DualMultiplyLongResults : Prop :=
    (∀ (c : Cond) (x : Bool) (lo hi m k : GPR) (s : State), lo ≠ hi →
      let second := if x then ror32 s.regs[k] 16 else s.regs[k]
      let p1 := (lo16 s.regs[m]).toInt * (lo16 second).toInt
      let p2 := (hi16 s.regs[m]).toInt * (hi16 second).toInt
      let acc := (s.regs[hi] ++ s.regs[lo]).toInt
      let put := fun (r : Int) (canSetQ : Prop) [Decidable canSetQ] =>
        { s with
          regs := (s.regs.set lo ((trunc 64 r).extractLsb' 0 32)).set hi ((trunc 64 r).extractLsb' 32 32)
          cpsr := { s.cpsr with q := if canSetQ ∧ r ≠ (trunc 64 r).toInt then true else s.cpsr.q } }
      exec (.smlald c x (regNum lo) (regNum hi) (regNum m) (regNum k)) s =
        .next (s.retired c (put (acc + p1 + p2) False)) ∧
      exec (.smlsld c x (regNum lo) (regNum hi) (regNum m) (regNum k)) s =
        .next (s.retired c (put (acc + p1 - p2) (s.cfg.qDualSub = .sourceLiteral)))) ∧
    (∀ (c : Cond) (x : Bool) (r m k : GPR) (s : State),
      exec (.smlald c x (regNum r) (regNum r) (regNum m) (regNum k)) s = .refused .unpredictableRdHiRdLo ∧
      exec (.smlsld c x (regNum r) (regNum r) (regNum m) (regNum k)) s = .refused .unpredictableRdHiRdLo) ∧
    (∀ (w : Word) (c : Cond), w.extractLsb' 28 4 = c.bits →
      let x : Bool := w.getLsbD 5
      let rdLo : RegNum := w.extractLsb' 12 4
      let rdHi : RegNum := w.extractLsb' 16 4
      let rm : RegNum := w.extractLsb' 0 4
      let rs : RegNum := w.extractLsb' 8 4
      (w &&& 0x0FF000D0 = 0x07400010 → decode w = .ok (.smlald c x rdLo rdHi rm rs)) ∧
      (w &&& 0x0FF000D0 = 0x07400050 → decode w = .ok (.smlsld c x rdLo rdHi rm rs))) ∧
    (∀ (c : Cond) (x : Bool) (rdLo rdHi rm rs : RegNum),
      printInstr (.smlald c x rdLo rdHi rm rs) =
        "SMLALD" ++ (if x then "X" else "") ++ condSuffix c ++ " " ++
          operandList [regName rdLo, regName rdHi, regName rm, regName rs] ∧
      printInstr (.smlsld c x rdLo rdHi rm rs) =
        "SMLSLD" ++ (if x then "X" else "") ++ condSuffix c ++ " " ++
          operandList [regName rdLo, regName rdHi, regName rm, regName rs])

/-- R212 to R214, with the rounding of R202 and both values of `SMMLS_FORM`, held in `State.cfg` (log entry 1); log entry 11.
-/
def Obligations.MostSignificantWordResults : Prop :=
    (∀ (c : Cond) (r : Bool) (d m k n : GPR) (s : State),
      let p := s.regs[m].toInt * s.regs[k].toInt
      let round : Int := if r then 0x80000000 else 0
      let top := fun (t : Int) => (trunc 64 t).extractLsb' 32 32
      let put := fun (v : Word) => { s with regs := s.regs.set d v }
      exec (.smmul c r (regNum d) (regNum m) (regNum k)) s = .next (s.retired c (put (top (p + round)))) ∧
      exec (.smmla c r (regNum d) (regNum m) (regNum k) (regNum n)) s =
        .next (s.retired c (put (top (s.regs[n].toInt * 2 ^ 32 + p + round)))) ∧
      exec (.smmls c r (regNum d) (regNum m) (regNum k) (regNum n)) s =
        .next (s.retired c (put (
          match s.cfg.smmlsForm with
          | .wide64 => top (s.regs[n].toInt * 2 ^ 32 - p + round)
          | .top32ThenSub => trunc 32 ((s.regs[n].toNat : Int) - (top (p + round)).toNat))))) ∧
    (∀ (w : Word) (c : Cond), w.extractLsb' 28 4 = c.bits →
      let r : Bool := w.getLsbD 5
      let rd : RegNum := w.extractLsb' 16 4
      let rm : RegNum := w.extractLsb' 0 4
      let rs : RegNum := w.extractLsb' 8 4
      let rn : RegNum := w.extractLsb' 12 4
      (w &&& 0x0FF0F0D0 = 0x0750F010 → decode w = .ok (.smmul c r rd rm rs)) ∧
      (w &&& 0x0FF000D0 = 0x07500010 → rn ≠ 15 → decode w = .ok (.smmla c r rd rm rs rn)) ∧
      (w &&& 0x0FF000D0 = 0x075000D0 → decode w = .ok (.smmls c r rd rm rs rn))) ∧
    (∀ (c : Cond) (r : Bool) (rd rm rs : RegNum),
      printInstr (.smmul c r rd rm rs) =
        "SMMUL" ++ (if r then "R" else "") ++ condSuffix c ++ " " ++ operandList [regName rd, regName rm, regName rs]) ∧
    (∀ (c : Cond) (r : Bool) (rd rm rs rn : RegNum),
      printInstr (.smmla c r rd rm rs rn) =
        "SMMLA" ++ (if r then "R" else "") ++ condSuffix c ++ " " ++
          operandList [regName rd, regName rm, regName rs, regName rn] ∧
      printInstr (.smmls c r rd rm rs rn) =
        "SMMLS" ++ (if r then "R" else "") ++ condSuffix c ++ " " ++
          operandList [regName rd, regName rm, regName rs, regName rn])

/-- R220 to R222, with both values of `USAT_BOUND`, held in `State.cfg` (log entry 1); log entry 11. The printed `#range` of
USAT is R222's for the default bound; under `two_pow_field_plus_1` that clause is the model's choice (log entry 18). -/
def Obligations.SaturateResults : Prop :=
    (∀ (c : Cond) (d : GPR) (satImm : BitVec 5) (m : GPR) (sh : ShiftType) (shiftImm : BitVec 5) (s : State),
      let operand :=
        match sh with
        | .lsl => lsl32 s.regs[m] shiftImm.toNat
        | .asr => if shiftImm = 0 then asr32 s.regs[m] 32 else asr32 s.regs[m] shiftImm.toNat
      let v := operand.toInt
      let width := match s.cfg.usatBound with
        | .twoPowField => satImm.toNat
        | .twoPowFieldPlus1 => satImm.toNat + 1
      let put := fun (r : Int) =>
        { s with regs := s.regs.set d (trunc 32 r), cpsr := { s.cpsr with q := if r ≠ v then true else s.cpsr.q } }
      exec (.ssat c (regNum d) satImm (regNum m) sh shiftImm) s =
        .next (s.retired c (put (signedSat v (satImm.toNat + 1)))) ∧
      exec (.usat c (regNum d) satImm (regNum m) sh shiftImm) s =
        .next (s.retired c (put (unsignedSat v width)))) ∧
    (∀ (w : Word) (c : Cond), w.extractLsb' 28 4 = c.bits →
      let rd : RegNum := w.extractLsb' 12 4
      let satImm : BitVec 5 := w.extractLsb' 16 5
      let rm : RegNum := w.extractLsb' 0 4
      let sh : ShiftType := if w.getLsbD 6 then .asr else .lsl
      let shiftImm : BitVec 5 := w.extractLsb' 7 5
      (w &&& 0x0FE00030 = 0x06A00010 → decode w = .ok (.ssat c rd satImm rm sh shiftImm)) ∧
      (w &&& 0x0FE00030 = 0x06E00010 → decode w = .ok (.usat c rd satImm rm sh shiftImm))) ∧
    (∀ (c : Cond) (rd : RegNum) (satImm : BitVec 5) (rm : RegNum) (sh : ShiftType) (shiftImm : BitVec 5),
      printInstr (.ssat c rd satImm rm sh shiftImm) =
        "SSAT" ++ condSuffix c ++ " " ++
          operandList [regName rd, rangeText (ssatWidth satImm), regName rm] ++ satShiftSuffix sh shiftImm ∧
      printInstr (.usat c rd satImm rm sh shiftImm) =
        "USAT" ++ condSuffix c ++ " " ++
          operandList [regName rd, rangeText satImm.toNat, regName rm] ++ satShiftSuffix sh shiftImm)

/-- R223 and R224, with both values of `USAT_BOUND`, held in `State.cfg` (log entry 1); log entry 11. The printed `#range` of
USAT16 follows USAT's (R224); under `two_pow_field_plus_1` that clause is the model's choice (log entry 18). -/
def Obligations.SaturateHalfwordsResults : Prop :=
    (∀ (c : Cond) (d : GPR) (satImm : BitVec 4) (m : GPR) (s : State),
      let v1 := (hi16 s.regs[m]).toInt
      let v0 := (lo16 s.regs[m]).toInt
      let width := match s.cfg.usatBound with
        | .twoPowField => satImm.toNat
        | .twoPowFieldPlus1 => satImm.toNat + 1
      let put := fun (r1 r0 : Int) =>
        { s with
          regs := s.regs.set d (halves (trunc 16 r1) (trunc 16 r0))
          cpsr := { s.cpsr with q := if r0 ≠ v0 ∨ r1 ≠ v1 then true else s.cpsr.q } }
      exec (.ssat16 c (regNum d) satImm (regNum m)) s =
        .next (s.retired c (put (signedSat v1 (satImm.toNat + 1)) (signedSat v0 (satImm.toNat + 1)))) ∧
      exec (.usat16 c (regNum d) satImm (regNum m)) s =
        .next (s.retired c (put (unsignedSat v1 width) (unsignedSat v0 width)))) ∧
    (∀ (w : Word) (c : Cond), w.extractLsb' 28 4 = c.bits →
      let rd : RegNum := w.extractLsb' 12 4
      let satImm : BitVec 4 := w.extractLsb' 16 4
      let rm : RegNum := w.extractLsb' 0 4
      (w &&& 0x0FF00FF0 = 0x06A00F30 → decode w = .ok (.ssat16 c rd satImm rm)) ∧
      (w &&& 0x0FF00FF0 = 0x06E00F30 → decode w = .ok (.usat16 c rd satImm rm))) ∧
    (∀ (c : Cond) (rd : RegNum) (satImm : BitVec 4) (rm : RegNum),
      printInstr (.ssat16 c rd satImm rm) =
        "SSAT16" ++ condSuffix c ++ " " ++ operandList [regName rd, rangeText (ssatWidth satImm), regName rm] ∧
      printInstr (.usat16 c rd satImm rm) =
        "USAT16" ++ condSuffix c ++ " " ++ operandList [regName rd, rangeText satImm.toNat, regName rm])

/-- R240 to R242 (log entry 11). -/
def Obligations.AbsoluteDifferencesResults : Prop :=
    (∀ (c : Cond) (d m k n : GPR) (s : State),
      let diff := fun (i : Nat) =>
        (((s.regs[m].extractLsb' (8 * i) 8).toNat : Int) - (s.regs[k].extractLsb' (8 * i) 8).toNat).natAbs
      let sum := diff 0 + diff 1 + diff 2 + diff 3
      let put := fun (v : Word) => { s with regs := s.regs.set d v }
      exec (.usad8 c (regNum d) (regNum m) (regNum k)) s = .next (s.retired c (put (BitVec.ofNat 32 sum))) ∧
      exec (.usada8 c (regNum d) (regNum m) (regNum k) (regNum n)) s =
        .next (s.retired c (put (BitVec.ofNat 32 (s.regs[n].toNat + sum))))) ∧
    (∀ (w : Word) (c : Cond), w.extractLsb' 28 4 = c.bits →
      let rd : RegNum := w.extractLsb' 16 4
      let rm : RegNum := w.extractLsb' 0 4
      let rs : RegNum := w.extractLsb' 8 4
      let rn : RegNum := w.extractLsb' 12 4
      (w &&& 0x0FF0F0F0 = 0x0780F010 → decode w = .ok (.usad8 c rd rm rs)) ∧
      (w &&& 0x0FF000F0 = 0x07800010 → rn ≠ 15 → decode w = .ok (.usada8 c rd rm rs rn))) ∧
    (∀ (c : Cond) (rd rm rs : RegNum),
      printInstr (.usad8 c rd rm rs) =
        "USAD8" ++ condSuffix c ++ " " ++ operandList [regName rd, regName rm, regName rs]) ∧
    (∀ (c : Cond) (rd rm rs rn : RegNum),
      printInstr (.usada8 c rd rm rs rn) =
        "USADA8" ++ condSuffix c ++ " " ++ operandList [regName rd, regName rm, regName rs, regName rn])

/-- R250 and R251 (log entry 11). -/
def Obligations.PackHalfwordResults : Prop :=
    (∀ (c : Cond) (d n m : GPR) (shiftImm : BitVec 5) (s : State),
      let amount := if shiftImm = 0 then 32 else shiftImm.toNat
      let put := fun (v : Word) => { s with regs := s.regs.set d v }
      exec (.pkhbt c (regNum d) (regNum n) (regNum m) shiftImm) s =
        .next (s.retired c (put ((lsl32 s.regs[m] shiftImm.toNat).extractLsb' 16 16 ++ s.regs[n].extractLsb' 0 16))) ∧
      exec (.pkhtb c (regNum d) (regNum n) (regNum m) shiftImm) s =
        .next (s.retired c (put (s.regs[n].extractLsb' 16 16 ++ (asr32 s.regs[m] amount).extractLsb' 0 16)))) ∧
    (∀ (w : Word) (c : Cond), w.extractLsb' 28 4 = c.bits →
      let rd : RegNum := w.extractLsb' 12 4
      let rn : RegNum := w.extractLsb' 16 4
      let rm : RegNum := w.extractLsb' 0 4
      let shiftImm : BitVec 5 := w.extractLsb' 7 5
      (w &&& 0x0FF00070 = 0x06800010 → decode w = .ok (.pkhbt c rd rn rm shiftImm)) ∧
      (w &&& 0x0FF00070 = 0x06800050 → decode w = .ok (.pkhtb c rd rn rm shiftImm))) ∧
    (∀ (c : Cond) (rd rn rm : RegNum) (shiftImm : BitVec 5),
      printInstr (.pkhbt c rd rn rm shiftImm) =
        "PKHBT" ++ condSuffix c ++ " " ++ operandList [regName rd, regName rn, regName rm] ++ lslSuffix shiftImm.toNat ∧
      printInstr (.pkhtb c rd rn rm shiftImm) =
        "PKHTB" ++ condSuffix c ++ " " ++
          operandList [regName rd, regName rn, regName rm] ++ (", ASR #" ++ toString (pkhtbShift shiftImm)))

/-- R260 to R262 (log entry 11). -/
def Obligations.ReverseBytesResults : Prop :=
    (∀ (c : Cond) (d m : GPR) (s : State),
      let b := fun (i : Nat) => s.regs[m].extractLsb' (8 * i) 8
      let put := fun (v : Word) => { s with regs := s.regs.set d v }
      exec (.rev c (regNum d) (regNum m)) s = .next (s.retired c (put (b 0 ++ b 1 ++ b 2 ++ b 3))) ∧
      exec (.rev16 c (regNum d) (regNum m)) s = .next (s.retired c (put (b 2 ++ b 3 ++ b 0 ++ b 1))) ∧
      exec (.revsh c (regNum d) (regNum m)) s = .next (s.retired c (put ((b 0 ++ b 1).signExtend 32)))) ∧
    (∀ (w : Word) (c : Cond), w.extractLsb' 28 4 = c.bits →
      let rd : RegNum := w.extractLsb' 12 4
      let rm : RegNum := w.extractLsb' 0 4
      (w &&& 0x0FFF0FF0 = 0x06BF0F30 → decode w = .ok (.rev c rd rm)) ∧
      (w &&& 0x0FFF0FF0 = 0x06BF0FB0 → decode w = .ok (.rev16 c rd rm)) ∧
      (w &&& 0x0FFF0FF0 = 0x06FF0FB0 → decode w = .ok (.revsh c rd rm))) ∧
    (∀ (c : Cond) (rd rm : RegNum),
      printInstr (.rev c rd rm) =
        "REV" ++ condSuffix c ++ " " ++ operandList [regName rd, regName rm] ∧
      printInstr (.rev16 c rd rm) =
        "REV16" ++ condSuffix c ++ " " ++ operandList [regName rd, regName rm] ∧
      printInstr (.revsh c rd rm) =
        "REVSH" ++ condSuffix c ++ " " ++ operandList [regName rd, regName rm])

/-- R29: the field value, the suffix's condition and when it passes; `0b1111` is none (R54). R29 gives AL the suffix `AL` or
none; that `condSuffix .al` is the empty text is the model's choice (log entry 17). -/
def Obligations.ConditionTable : Prop :=
    (∀ f : Cpsr,
      conditionPassed .eq f = f.z ∧ conditionPassed .ne f = !f.z ∧ conditionPassed .cs f = f.c ∧
      conditionPassed .cc f = !f.c ∧ conditionPassed .mi f = f.n ∧ conditionPassed .pl f = !f.n ∧
      conditionPassed .vs f = f.v ∧ conditionPassed .vc f = !f.v ∧ conditionPassed .hi f = (f.c && !f.z) ∧
      conditionPassed .ls f = (!f.c || f.z) ∧ conditionPassed .ge f = (f.n == f.v) ∧
      conditionPassed .lt f = (f.n != f.v) ∧ conditionPassed .gt f = (!f.z && f.n == f.v) ∧
      conditionPassed .le f = (f.z || f.n != f.v) ∧ conditionPassed .al f = true) ∧
    [Cond.eq, .ne, .cs, .cc, .mi, .pl, .vs, .vc, .hi, .ls, .ge, .lt, .gt, .le, .al].map Cond.bits =
      (List.range 15).map (BitVec.ofNat 4) ∧
    [Cond.eq, .ne, .cs, .cc, .mi, .pl, .vs, .vc, .hi, .ls, .ge, .lt, .gt, .le, .al].map condSuffix =
      ["EQ", "NE", "CS", "CC", "MI", "PL", "VS", "VC", "HI", "LS", "GE", "LT", "GT", "LE", ""] ∧
    (∀ (s : State) (w : Word), s.fetchWord = some w → w.extractLsb' 28 4 = 15 →
      decode w = .error .unconditionalSpace ∧ step s = .refused .unconditionalSpace)

/-- R55: the 69 rows, whose masks leave the condition out, and of which no word matches two. -/
def Obligations.OpcodeRowsDisjoint : Prop :=
    opcodeTable.length = 69 ∧ (∀ r ∈ opcodeTable, r.mask.extractLsb' 28 4 = 0) ∧
    ∀ (w : Word) (r q : OpRow), r ∈ opcodeTable → q ∈ opcodeTable → r.matchesWord w = true →
      q.matchesWord w = true → r = q

/-- R50, R51, R56, R58: no operand bit of an encoding is dropped. The encoder is written from the formats of R51, the decoder
from the table of R56. -/
def Obligations.DecodeInvertsEncode : Prop :=
    ∀ i : Instr, i.wellFormed = true → decode (encode i) = .ok i

/-- R51, R55, R56: every word has at most one reading, and that reading has this word; register fields of 15 included. -/
def Obligations.EncodeInvertsDecode : Prop :=
    ∀ (w : Word) (i : Instr), decode w = .ok i → encode i = w

/-- R54, R57: which words are no instruction, and the order of the two reasons. -/
def Obligations.DecodeRejectsExactlyUnlistedWords : Prop :=
    ∀ w : Word,
      (decode w = .error .unconditionalSpace ↔ w.extractLsb' 28 4 = 15) ∧
      (decode w = .error .notInOpcodeTable ↔
        w.extractLsb' 28 4 ≠ 15 ∧ ∀ r ∈ opcodeTable, r.matchesWord w = false)

/-- The unlisted combinations of R57, which are also R114, R150, R225 and R243, each as fixed bits under a mask. -/
def Obligations.UnlistedEncodingsRefused : Prop :=
    ∀ w : Word, w.extractLsb' 28 4 ≠ 15 →
      (-- R114: op = 1 and 5 of the extends
       (∀ p ∈ [(0x0FF003F0#32, 0x06900070#32), (0x0FF003F0, 0x06D00070),
         -- R150: op1 = 0 and 4, and op2 = 5 and 6, of the parallel instructions
         (0x0FF00F10, 0x06000F10), (0x0FF00F10, 0x06400F10), (0x0F800FF0, 0x06000FB0), (0x0F800FF0, 0x06000FD0),
         -- the multiplies: op1.op2 not in the table of R200
         (0x0FF000D0, 0x07000090), (0x0FF000D0, 0x070000D0), (0x0FF000D0, 0x07400090), (0x0FF000D0, 0x074000D0),
         (0x0FF000D0, 0x07500050), (0x0FF000D0, 0x07500090), (0x0FF00010, 0x07100010), (0x0FF00010, 0x07200010),
         (0x0FF00010, 0x07300010), (0x0FF00010, 0x07600010), (0x0FF00010, 0x07700010),
         -- R225, R263: bit 22 = 1 and bit 7 = 0 of the reversals
         (0x0FFF0FF0, 0x06FF0F30), (0x0FF00FF0, 0x06F00F30)],
         w &&& p.1 = p.2 → decode w = .error .notInOpcodeTable)) ∧
      (-- R225: SSAT16 with bit 20 = 1 that is not REV
       w &&& 0x0FF00FF0 = 0x06B00F30 → w.extractLsb' 16 4 ≠ 15 → decode w = .error .notInOpcodeTable) ∧
      (-- the fixed 1111 of bits 11-8 changed: PAS, SEL, SAT16, REV
       ∀ p ∈ [(0x0F800000#32, 0x06000000#32), (0x0FF000F0, 0x068000B0), (0x0FF000F0, 0x06A00030), (0x0FF000F0, 0x06E00030),
         (0x0FFF00F0, 0x06BF0030), (0x0FFF00F0, 0x06BF00B0), (0x0FFF00F0, 0x06FF00B0)],
         w &&& p.1 = p.2 → w.extractLsb' 8 4 ≠ 15 → decode w = .error .notInOpcodeTable) ∧
      (-- R243: bits 7-4 other than 0001 beside USAD8
       w &&& 0x0FF00000 = 0x07800000 → w.extractLsb' 4 4 ≠ 1 → decode w = .error .notInOpcodeTable) ∧
      (-- outside the four spaces of bits 27-23
       w.extractLsb' 23 5 ∉ [0b01100#5, 0b01101#5, 0b01110#5, 0b01111#5] → decode w = .error .notInOpcodeTable)

/-- Words of the rules' own examples (R103, R120, R132, R210, R221, R240, R251, R260). -/
def Obligations.ExampleWordsDecode : Prop :=
    decode 0xE6A10072 = .ok (.sxtab .al 0 1 2 0) ∧ decode 0xE6810FB2 = .ok (.sel .al 0 1 2) ∧
    decode 0xE6110F12 = .ok (.sadd16 .al 0 1 2) ∧ decode 0xE7454231 = .ok (.smlald .al true 4 5 1 2) ∧
    decode 0xE6A70451 = .ok (.ssat .al 0 7 1 .asr 8) ∧ decode 0xE780F211 = .ok (.usad8 .al 0 1 2) ∧
    decode 0xE6810852 = .ok (.pkhtb .al 0 1 2 16) ∧ decode 0xE6BF0F31 = .ok (.rev .al 0 1)

/-- R53, with the register fields it names per instruction. A marker field of `0b1111` is no operand of these terms. The
refusal comes before the condition (R52). That a term which no word decodes to (such as SXTAB with `Rn` = 15, whose word
is SXTB) is refused like the others is the model's choice (log entry 7). -/
def Obligations.RegisterFifteenRefused : Prop :=
    ∀ (c : Cond) (s : State),
      (∀ (rd rn rm : RegNum) (rot : BitVec 2), 15 ∈ [rd, rn, rm] →
        exec (.sxtab16 c rd rn rm rot) s = .refused .unpredictableR15) ∧
      (∀ (rd rn rm : RegNum) (rot : BitVec 2), 15 ∈ [rd, rn, rm] →
        exec (.sxtab c rd rn rm rot) s = .refused .unpredictableR15) ∧
      (∀ (rd rn rm : RegNum) (rot : BitVec 2), 15 ∈ [rd, rn, rm] →
        exec (.sxtah c rd rn rm rot) s = .refused .unpredictableR15) ∧
      (∀ (rd rn rm : RegNum) (rot : BitVec 2), 15 ∈ [rd, rn, rm] →
        exec (.uxtab16 c rd rn rm rot) s = .refused .unpredictableR15) ∧
      (∀ (rd rn rm : RegNum) (rot : BitVec 2), 15 ∈ [rd, rn, rm] →
        exec (.uxtab c rd rn rm rot) s = .refused .unpredictableR15) ∧
      (∀ (rd rn rm : RegNum) (rot : BitVec 2), 15 ∈ [rd, rn, rm] →
        exec (.uxtah c rd rn rm rot) s = .refused .unpredictableR15) ∧
      (∀ (rd rm : RegNum) (rot : BitVec 2), 15 ∈ [rd, rm] →
        exec (.sxtb16 c rd rm rot) s = .refused .unpredictableR15) ∧
      (∀ (rd rm : RegNum) (rot : BitVec 2), 15 ∈ [rd, rm] →
        exec (.sxtb c rd rm rot) s = .refused .unpredictableR15) ∧
      (∀ (rd rm : RegNum) (rot : BitVec 2), 15 ∈ [rd, rm] →
        exec (.sxth c rd rm rot) s = .refused .unpredictableR15) ∧
      (∀ (rd rm : RegNum) (rot : BitVec 2), 15 ∈ [rd, rm] →
        exec (.uxtb16 c rd rm rot) s = .refused .unpredictableR15) ∧
      (∀ (rd rm : RegNum) (rot : BitVec 2), 15 ∈ [rd, rm] →
        exec (.uxtb c rd rm rot) s = .refused .unpredictableR15) ∧
      (∀ (rd rm : RegNum) (rot : BitVec 2), 15 ∈ [rd, rm] →
        exec (.uxth c rd rm rot) s = .refused .unpredictableR15) ∧
      (∀ (rd rn rm : RegNum), 15 ∈ [rd, rn, rm] →
        exec (.sel c rd rn rm) s = .refused .unpredictableR15) ∧
      (∀ (rd rn rm : RegNum), 15 ∈ [rd, rn, rm] →
        exec (.sadd16 c rd rn rm) s = .refused .unpredictableR15) ∧
      (∀ (rd rn rm : RegNum), 15 ∈ [rd, rn, rm] →
        exec (.saddsubx c rd rn rm) s = .refused .unpredictableR15) ∧
      (∀ (rd rn rm : RegNum), 15 ∈ [rd, rn, rm] →
        exec (.ssubaddx c rd rn rm) s = .refused .unpredictableR15) ∧
      (∀ (rd rn rm : RegNum), 15 ∈ [rd, rn, rm] →
        exec (.ssub16 c rd rn rm) s = .refused .unpredictableR15) ∧
      (∀ (rd rn rm : RegNum), 15 ∈ [rd, rn, rm] →
        exec (.sadd8 c rd rn rm) s = .refused .unpredictableR15) ∧
      (∀ (rd rn rm : RegNum), 15 ∈ [rd, rn, rm] →
        exec (.ssub8 c rd rn rm) s = .refused .unpredictableR15) ∧
      (∀ (rd rn rm : RegNum), 15 ∈ [rd, rn, rm] →
        exec (.qadd16 c rd rn rm) s = .refused .unpredictableR15) ∧
      (∀ (rd rn rm : RegNum), 15 ∈ [rd, rn, rm] →
        exec (.qaddsubx c rd rn rm) s = .refused .unpredictableR15) ∧
      (∀ (rd rn rm : RegNum), 15 ∈ [rd, rn, rm] →
        exec (.qsubaddx c rd rn rm) s = .refused .unpredictableR15) ∧
      (∀ (rd rn rm : RegNum), 15 ∈ [rd, rn, rm] →
        exec (.qsub16 c rd rn rm) s = .refused .unpredictableR15) ∧
      (∀ (rd rn rm : RegNum), 15 ∈ [rd, rn, rm] →
        exec (.qadd8 c rd rn rm) s = .refused .unpredictableR15) ∧
      (∀ (rd rn rm : RegNum), 15 ∈ [rd, rn, rm] →
        exec (.qsub8 c rd rn rm) s = .refused .unpredictableR15) ∧
      (∀ (rd rn rm : RegNum), 15 ∈ [rd, rn, rm] →
        exec (.shadd16 c rd rn rm) s = .refused .unpredictableR15) ∧
      (∀ (rd rn rm : RegNum), 15 ∈ [rd, rn, rm] →
        exec (.shaddsubx c rd rn rm) s = .refused .unpredictableR15) ∧
      (∀ (rd rn rm : RegNum), 15 ∈ [rd, rn, rm] →
        exec (.shsubaddx c rd rn rm) s = .refused .unpredictableR15) ∧
      (∀ (rd rn rm : RegNum), 15 ∈ [rd, rn, rm] →
        exec (.shsub16 c rd rn rm) s = .refused .unpredictableR15) ∧
      (∀ (rd rn rm : RegNum), 15 ∈ [rd, rn, rm] →
        exec (.shadd8 c rd rn rm) s = .refused .unpredictableR15) ∧
      (∀ (rd rn rm : RegNum), 15 ∈ [rd, rn, rm] →
        exec (.shsub8 c rd rn rm) s = .refused .unpredictableR15) ∧
      (∀ (rd rn rm : RegNum), 15 ∈ [rd, rn, rm] →
        exec (.uadd16 c rd rn rm) s = .refused .unpredictableR15) ∧
      (∀ (rd rn rm : RegNum), 15 ∈ [rd, rn, rm] →
        exec (.uaddsubx c rd rn rm) s = .refused .unpredictableR15) ∧
      (∀ (rd rn rm : RegNum), 15 ∈ [rd, rn, rm] →
        exec (.usubaddx c rd rn rm) s = .refused .unpredictableR15) ∧
      (∀ (rd rn rm : RegNum), 15 ∈ [rd, rn, rm] →
        exec (.usub16 c rd rn rm) s = .refused .unpredictableR15) ∧
      (∀ (rd rn rm : RegNum), 15 ∈ [rd, rn, rm] →
        exec (.uadd8 c rd rn rm) s = .refused .unpredictableR15) ∧
      (∀ (rd rn rm : RegNum), 15 ∈ [rd, rn, rm] →
        exec (.usub8 c rd rn rm) s = .refused .unpredictableR15) ∧
      (∀ (rd rn rm : RegNum), 15 ∈ [rd, rn, rm] →
        exec (.uqadd16 c rd rn rm) s = .refused .unpredictableR15) ∧
      (∀ (rd rn rm : RegNum), 15 ∈ [rd, rn, rm] →
        exec (.uqaddsubx c rd rn rm) s = .refused .unpredictableR15) ∧
      (∀ (rd rn rm : RegNum), 15 ∈ [rd, rn, rm] →
        exec (.uqsubaddx c rd rn rm) s = .refused .unpredictableR15) ∧
      (∀ (rd rn rm : RegNum), 15 ∈ [rd, rn, rm] →
        exec (.uqsub16 c rd rn rm) s = .refused .unpredictableR15) ∧
      (∀ (rd rn rm : RegNum), 15 ∈ [rd, rn, rm] →
        exec (.uqadd8 c rd rn rm) s = .refused .unpredictableR15) ∧
      (∀ (rd rn rm : RegNum), 15 ∈ [rd, rn, rm] →
        exec (.uqsub8 c rd rn rm) s = .refused .unpredictableR15) ∧
      (∀ (rd rn rm : RegNum), 15 ∈ [rd, rn, rm] →
        exec (.uhadd16 c rd rn rm) s = .refused .unpredictableR15) ∧
      (∀ (rd rn rm : RegNum), 15 ∈ [rd, rn, rm] →
        exec (.uhaddsubx c rd rn rm) s = .refused .unpredictableR15) ∧
      (∀ (rd rn rm : RegNum), 15 ∈ [rd, rn, rm] →
        exec (.uhsubaddx c rd rn rm) s = .refused .unpredictableR15) ∧
      (∀ (rd rn rm : RegNum), 15 ∈ [rd, rn, rm] →
        exec (.uhsub16 c rd rn rm) s = .refused .unpredictableR15) ∧
      (∀ (rd rn rm : RegNum), 15 ∈ [rd, rn, rm] →
        exec (.uhadd8 c rd rn rm) s = .refused .unpredictableR15) ∧
      (∀ (rd rn rm : RegNum), 15 ∈ [rd, rn, rm] →
        exec (.uhsub8 c rd rn rm) s = .refused .unpredictableR15) ∧
      (∀ (x : Bool) (rd rm rs : RegNum), 15 ∈ [rd, rm, rs] →
        exec (.smuad c x rd rm rs) s = .refused .unpredictableR15) ∧
      (∀ (x : Bool) (rd rm rs rn : RegNum), 15 ∈ [rd, rm, rs, rn] →
        exec (.smlad c x rd rm rs rn) s = .refused .unpredictableR15) ∧
      (∀ (x : Bool) (rd rm rs : RegNum), 15 ∈ [rd, rm, rs] →
        exec (.smusd c x rd rm rs) s = .refused .unpredictableR15) ∧
      (∀ (x : Bool) (rd rm rs rn : RegNum), 15 ∈ [rd, rm, rs, rn] →
        exec (.smlsd c x rd rm rs rn) s = .refused .unpredictableR15) ∧
      (∀ (x : Bool) (rdLo rdHi rm rs : RegNum), 15 ∈ [rdLo, rdHi, rm, rs] →
        exec (.smlald c x rdLo rdHi rm rs) s = .refused .unpredictableR15) ∧
      (∀ (x : Bool) (rdLo rdHi rm rs : RegNum), 15 ∈ [rdLo, rdHi, rm, rs] →
        exec (.smlsld c x rdLo rdHi rm rs) s = .refused .unpredictableR15) ∧
      (∀ (r : Bool) (rd rm rs : RegNum), 15 ∈ [rd, rm, rs] →
        exec (.smmul c r rd rm rs) s = .refused .unpredictableR15) ∧
      (∀ (r : Bool) (rd rm rs rn : RegNum), 15 ∈ [rd, rm, rs, rn] →
        exec (.smmla c r rd rm rs rn) s = .refused .unpredictableR15) ∧
      (∀ (r : Bool) (rd rm rs rn : RegNum), 15 ∈ [rd, rm, rs, rn] →
        exec (.smmls c r rd rm rs rn) s = .refused .unpredictableR15) ∧
      (∀ (rd : RegNum) (satImm : BitVec 5) (rm : RegNum) (sh : ShiftType) (shiftImm : BitVec 5), 15 ∈ [rd, rm] →
        exec (.ssat c rd satImm rm sh shiftImm) s = .refused .unpredictableR15) ∧
      (∀ (rd : RegNum) (satImm : BitVec 5) (rm : RegNum) (sh : ShiftType) (shiftImm : BitVec 5), 15 ∈ [rd, rm] →
        exec (.usat c rd satImm rm sh shiftImm) s = .refused .unpredictableR15) ∧
      (∀ (rd : RegNum) (satImm : BitVec 4) (rm : RegNum), 15 ∈ [rd, rm] →
        exec (.ssat16 c rd satImm rm) s = .refused .unpredictableR15) ∧
      (∀ (rd : RegNum) (satImm : BitVec 4) (rm : RegNum), 15 ∈ [rd, rm] →
        exec (.usat16 c rd satImm rm) s = .refused .unpredictableR15) ∧
      (∀ (rd rm rs : RegNum), 15 ∈ [rd, rm, rs] →
        exec (.usad8 c rd rm rs) s = .refused .unpredictableR15) ∧
      (∀ (rd rm rs rn : RegNum), 15 ∈ [rd, rm, rs, rn] →
        exec (.usada8 c rd rm rs rn) s = .refused .unpredictableR15) ∧
      (∀ (rd rn rm : RegNum) (shiftImm : BitVec 5), 15 ∈ [rd, rn, rm] →
        exec (.pkhbt c rd rn rm shiftImm) s = .refused .unpredictableR15) ∧
      (∀ (rd rn rm : RegNum) (shiftImm : BitVec 5), 15 ∈ [rd, rn, rm] →
        exec (.pkhtb c rd rn rm shiftImm) s = .refused .unpredictableR15) ∧
      (∀ (rd rm : RegNum), 15 ∈ [rd, rm] →
        exec (.rev c rd rm) s = .refused .unpredictableR15) ∧
      (∀ (rd rm : RegNum), 15 ∈ [rd, rm] →
        exec (.rev16 c rd rm) s = .refused .unpredictableR15) ∧
      (∀ (rd rm : RegNum), 15 ∈ [rd, rm] →
        exec (.revsh c rd rm) s = .refused .unpredictableR15)

/-- R300, R307: no exception is raised, and an instruction whose fields are admitted (R53, R203) always completes. The refusal
of terms no word decodes to is the model's choice (log entry 7). -/
def Obligations.CompletesExactlyWhenWellFormed : Prop :=
    ∀ (i : Instr) (s : State),
      (i.wellFormed = true ↔ ∃ t, exec i s = .next t) ∧ ∀ f : Fault, exec i s ≠ .fault f

/-- R303: each reason exactly when, in the order of the table, for a core of version 6 or later. -/
def Obligations.RefusalReasons : Prop :=
    ∀ s : State,
      (step s = .refused .fetchOutOfProgram ↔ s.pc.toNat ≠ s.endPc ∧ s.fetchWord = none) ∧
      ∀ w : Word, s.fetchWord = some w → 6 ≤ s.cfg.archVersion →
        (step s = .refused .unconditionalSpace ↔ w.extractLsb' 28 4 = 15) ∧
        (step s = .refused .notInOpcodeTable ↔
          w.extractLsb' 28 4 ≠ 15 ∧ ∀ r ∈ opcodeTable, r.matchesWord w = false) ∧
        (step s = .refused .unpredictableR15 ↔ ∃ i, decode w = .ok i ∧ 15 ∈ i.registers) ∧
        (step s = .refused .unpredictableRdHiRdLo ↔
          ∃ i r, decode w = .ok i ∧ 15 ∉ i.registers ∧ i.destinations = [r, r])

/-- R321 item 1 and R301; which of the two reasons is given is the model's choice (log entry 8). -/
def Obligations.OlderCoresRefuseEveryWord : Prop :=
    ∀ (s : State) (w : Word), s.fetchWord = some w → s.cfg.archVersion < 6 →
      (w.extractLsb' 28 4 ≠ 15 → step s = .refused .notInOpcodeTable) ∧
      (w.extractLsb' 28 4 = 15 → step s = .refused .unconditionalSpace)

/-- R41, R52: the step is the fetch, the decoding and the instruction, with nothing around it. -/
def Obligations.StepRunsTheDecodedInstruction : Prop :=
    ∀ (s : State) (b0 b1 b2 b3 : Byte) (i : Instr),
      s.entryPc.toNat ≤ s.pc.toNat → s.pc.toNat < s.endPc → s.pc.toNat % 4 = 0 → 6 ≤ s.cfg.archVersion →
      s.mem.readByte s.pc.toNat = some b0 → s.mem.readByte (s.pc.toNat + 1) = some b1 →
      s.mem.readByte (s.pc.toNat + 2) = some b2 → s.mem.readByte (s.pc.toNat + 3) = some b3 →
      decode (if s.cfg.fetchBigEndian then b0 ++ b1 ++ b2 ++ b3 else b3 ++ b2 ++ b1 ++ b0) = .ok i →
      step s = exec i s

/-- R52, for the word fetched: the order of the tests, the condition, and pc. -/
def Obligations.StepWrapper : Prop :=
    ∀ (s : State) (w : Word), s.fetchWord = some w → 6 ≤ s.cfg.archVersion →
      (w.extractLsb' 28 4 = 15 → step s = .refused .unconditionalSpace) ∧
      (w.extractLsb' 28 4 ≠ 15 → (∀ r ∈ opcodeTable, r.matchesWord w = false) → step s = .refused .notInOpcodeTable) ∧
      (∀ (c : Cond) (r : OpRow), w.extractLsb' 28 4 = c.bits → r ∈ opcodeTable → r.matchesWord w = true →
        ∃ i, decode w = .ok i ∧ i.mnemonic = r.mnemonic ∧ i.cond = c ∧ step s = exec i s ∧
          (15 ∈ i.registers → step s = .refused .unpredictableR15) ∧
          (∀ d, 15 ∉ i.registers → i.destinations = [d, d] → step s = .refused .unpredictableRdHiRdLo) ∧
          (i.wellFormed = true → conditionPassed c s.cpsr = false → step s = .next { s with pc := s.pc + 4 }) ∧
          (i.wellFormed = true → conditionPassed c s.cpsr = true → ∃ t, step s = .next t ∧ t.pc = s.pc + 4))

/-- R52, R324 (c), for every instruction at once. -/
def Obligations.FailedConditionOnlyAdvances : Prop :=
    ∀ (i : Instr) (s : State), i.wellFormed = true → conditionPassed i.cond s.cpsr = false →
      exec i s = .next { s with pc := s.pc + 4 }

/-- R41: the bytes of a fetched word, and the parameter's one effect. -/
def Obligations.FetchByteOrder : Prop :=
    Config.default.fetchBigEndian = false ∧
    (∀ (s : State) (b0 b1 b2 b3 : Byte),
      s.entryPc.toNat ≤ s.pc.toNat → s.pc.toNat < s.endPc → s.pc.toNat % 4 = 0 →
      s.mem.readByte s.pc.toNat = some b0 → s.mem.readByte (s.pc.toNat + 1) = some b1 →
      s.mem.readByte (s.pc.toNat + 2) = some b2 → s.mem.readByte (s.pc.toNat + 3) = some b3 →
      (s.cfg.fetchBigEndian = false → s.fetchWord = some (b3 ++ b2 ++ b1 ++ b0)) ∧
      (s.cfg.fetchBigEndian = true → s.fetchWord = some (b0 ++ b1 ++ b2 ++ b3))) ∧
    (∀ (i : Instr) (s : State) (big : Bool),
      let order := fun (u : State) => { u with cfg := { u.cfg with fetchBigEndian := big } }
      (∀ t, exec i s = .next t → exec i (order s) = .next (order t)) ∧
      (∀ r, exec i s = .refused r → exec i (order s) = .refused r))

/-- R42. That a step at END_PC is the fault `endOfRun` is the model's choice (log entry 5). -/
def Obligations.FetchBounds : Prop :=
    ∀ s : State,
      (s.pc.toNat ≠ s.endPc →
        ¬(s.entryPc.toNat ≤ s.pc.toNat ∧ s.pc.toNat < s.endPc ∧ s.pc.toNat % 4 = 0) →
        step s = .refused .fetchOutOfProgram) ∧
      (s.InRun → s.pc.toNat ≠ s.endPc → ∃ w, s.fetchWord = some w) ∧
      (s.pc.toNat = s.endPc → step s = .fault .endOfRun)

/-- R23 and R61; at `0xFFFFFFFC` too, by the `trunc_32` of R23. -/
def Obligations.PcAdvancesByFourAndIsNotRead : Prop :=
    ∀ (i : Instr) (s t : State) (p : Word), exec i s = .next t →
      t.pc = BitVec.ofNat 32 (s.pc.toNat + 4) ∧ (s.pc = 0xFFFFFFFC → t.pc = 0) ∧
      (s.pc.toNat % 4 = 0 → t.pc.toNat % 4 = 0) ∧
      exec i { s with pc := p } = .next { t with pc := p + 4 }

/-- R22, R30, R48, R52: the frame of every instruction. The flags are FlagWriters. -/
def Obligations.OnlyDestinationsAreWritten : Prop :=
    ∀ (i : Instr) (s t : State), exec i s = .next t →
      (∀ r : GPR, regNum r ∉ i.destinations → t.regs[r] = s.regs[r]) ∧
      (∀ a : Nat, t.mem.readByte a = s.mem.readByte a) ∧ t.mem = s.mem ∧ t.entryPc = s.entryPc ∧ t.cfg = s.cfg ∧
      ((∃ d, i.destinations = [d]) ∨
        (i.mnemonic = .smlald ∨ i.mnemonic = .smlsld) ∧ ∃ lo hi, i.destinations = [lo, hi] ∧ lo ≠ hi)

/-- R22: what an instruction writes depends on the registers it names, the flags and the parameters, and on nothing else. -/
def Obligations.OnlyNamedRegistersAreRead : Prop :=
    ∀ (i : Instr) (s t u : State), exec i s = .next t → u.cpsr = s.cpsr → u.cfg = s.cfg →
      (∀ r : GPR, regNum r ∈ i.registers → u.regs[r] = s.regs[r]) →
      ∃ v, exec i u = .next v ∧ v.cpsr = t.cpsr ∧ ∀ r : GPR, regNum r ∈ i.registers → v.regs[r] = t.regs[r]

/-- R28, with the reading of `Q_DUAL_SUB` (R209) in `qWriters`. -/
def Obligations.FlagWriters : Prop :=
    ∀ (i : Instr) (s t : State), exec i s = .next t →
      (t.cpsr.n = s.cpsr.n ∧ t.cpsr.z = s.cpsr.z ∧ t.cpsr.c = s.cpsr.c ∧ t.cpsr.v = s.cpsr.v) ∧
      (i.mnemonic ∉ [Mnemonic.sadd16, .saddsubx, .ssubaddx, .ssub16, .sadd8, .ssub8, .uadd16, .uaddsubx, .usubaddx,
        .usub16, .uadd8, .usub8] → t.cpsr.ge = s.cpsr.ge) ∧
      (i.mnemonic ∉ [Mnemonic.ssat, .usat, .ssat16, .usat16, .smuad, .smlad, .smlsd, .smlsld] → t.cpsr.q = s.cpsr.q) ∧
      (s.cfg.qDualSub = .armArm → i.mnemonic = .smlsld → t.cpsr.q = s.cpsr.q) ∧
      (s.cfg.qDualSub = .sourceLiteral → i.mnemonic = .smlsd → t.cpsr.q = s.cpsr.q) ∧
      (s.cpsr.q = true → t.cpsr.q = true)

/-- R25. A writer whose condition passes leaves GE independent of what it held; every other instruction but SEL carries GE
through unread. -/
def Obligations.GeFlagsWrittenWholeAndReadBySelOnly : Prop :=
    ∀ (i : Instr) (s t : State) (g : BitVec 4), exec i s = .next t →
      (i.mnemonic ≠ .sel →
        exec i (s.setGE g) =
          .next (t.setGE (if i.mnemonic ∈ geWriters ∧ conditionPassed i.cond s.cpsr = true then t.cpsr.ge else g))) ∧
      (i.mnemonic ∈ [Mnemonic.sadd16, .saddsubx, .ssubaddx, .ssub16, .uadd16, .uaddsubx, .usubaddx, .usub16] →
        conditionPassed i.cond s.cpsr = true →
        t.cpsr.ge.getLsbD 3 = t.cpsr.ge.getLsbD 2 ∧ t.cpsr.ge.getLsbD 1 = t.cpsr.ge.getLsbD 0) ∧
      (i.mnemonic ∉ geWriters → t.cpsr.ge = s.cpsr.ge)

/-- R26, R306, R324 (b): the sticky flag, over an instruction and over any number of steps. -/
def Obligations.QIsStickyAndUnread : Prop :=
    (∀ (i : Instr) (s t : State), exec i s = .next t → s.cpsr.q = false →
      exec i (s.raiseQ true) = .next (t.raiseQ true)) ∧
    (∀ (k : Nat) (s t : State), runSteps k s = .next t → s.cpsr.q = true → t.cpsr.q = true)

/-- R27. -/
def Obligations.ConditionFlagsNeverChangeInARun : Prop :=
    ∀ (k : Nat) (s t : State), runSteps k s = .next t →
      t.cpsr.n = s.cpsr.n ∧ t.cpsr.z = s.cpsr.z ∧ t.cpsr.c = s.cpsr.c ∧ t.cpsr.v = s.cpsr.v ∧
      ∀ c : Cond, conditionPassed c t.cpsr = conditionPassed c s.cpsr

/-- R48, R43, R45. -/
def Obligations.InstructionMemoryIsReadOnly : Prop :=
    ∀ (k : Nat) (s t : State), runSteps k s = .next t →
      (∀ a : Nat, t.mem.readByte a = s.mem.readByte a) ∧ t.entryPc = s.entryPc ∧ t.endPc = s.endPc ∧
      ∀ p : Word, ({ t with pc := p } : State).fetchWord = ({ s with pc := p } : State).fetchWord

/-- The reset state is the model's (log entries 2 to 4); it meets the invariant of InRunIsKept. -/
def Obligations.ResetIsAStateOfARun : Prop :=
    State.reset.InRun ∧ State.reset.mem.wf = true

/-- R23, R40, R42, R48: the invariant of a run, with the canonical form of memory. -/
def Obligations.InRunIsKept : Prop :=
    ∀ s t : State, s.InRun → step s = .next t → t.InRun ∧ t.mem.wf = true

/-- R322: a run neither loops nor ends early. -/
def Obligations.RunEndsAtEndPcOrIsRefused : Prop :=
    ∀ s : State, s.InRun →
      (∃ k t r, k < s.remaining ∧ runSteps k s = .next t ∧ t.pc.toNat = s.pc.toNat + 4 * k ∧ step t = .refused r) ∨
      ((∃ t, runSteps s.remaining s = .next t ∧ t.pc.toNat = s.endPc) ∧
        ∀ k, k < s.remaining → ∃ u, runSteps k s = .next u ∧ u.pc.toNat = s.pc.toNat + 4 * k ∧ u.pc.toNat ≠ s.endPc)

/-- R31, R40, R320, R321: what the environment sets, and that it leaves every register and flag free. -/
def Obligations.LaunchPlacesTheProgram : Prop :=
    ∀ (cfg : Config) (regs : Vector Word 15) (flags : Cpsr) (entryPc : Word) (program : List Word),
      entryPc.toNat % 4 = 0 → entryPc.toNat + 4 * program.length ≤ 0xFFFFFFFC →
      let s := State.launch cfg regs flags entryPc program
      s.InRun ∧ s.mem.wf = true ∧ s.pc = entryPc ∧ s.entryPc = entryPc ∧ s.regs = regs ∧ s.cpsr = flags ∧
      s.cfg = cfg ∧
      s.endPc = entryPc.toNat + 4 * program.length ∧ s.remaining = program.length ∧
      (∀ a, a < entryPc.toNat ∨ s.endPc ≤ a → s.mem.readByte a = none) ∧
      (∀ k (h : k < program.length),
        ({ s with pc := BitVec.ofNat 32 (entryPc.toNat + 4 * k) } : State).fetchWord = some program[k])

/-- `withFetchWord` is the model's (log entry 14): the environment's placing of one word (R320), at END_PC as a program of its
own, else over the word at pc. -/
def Obligations.PlacedWordRunsNext : Prop :=
    ∀ (s : State) (w : Word), s.InRun → s.pc.toNat ≤ 0xFFFFFFF8 →
      let t := s.withFetchWord 32 w.toNat
      t.fetchWord = some w ∧ t.InRun ∧ t.mem.wf = true ∧ t.pc = s.pc ∧ t.regs = s.regs ∧ t.cpsr = s.cpsr ∧
      t.cfg = s.cfg ∧
      (6 ≤ s.cfg.archVersion → ∀ i, decode w = .ok i → step t = exec i t)

/-- R121, with the sense of GE that R167 gives, and R323: SEL reads the flags USUB8 has just written. -/
def Obligations.Usub8ThenSelIsUnsignedMinimum : Prop :=
    ∀ (d a b : GPR) (s : State), d ≠ a → d ≠ b →
      ∃ t u, exec (.usub8 .al (regNum d) (regNum a) (regNum b)) s = .next t ∧
        exec (.sel .al (regNum d) (regNum b) (regNum a)) t = .next u ∧
        (∀ i < 4, (byteAt u.regs[d] i).toNat = min (byteAt s.regs[a] i).toNat (byteAt s.regs[b] i).toNat) ∧
        (∀ i < 4, t.cpsr.ge.getLsbD i = decide ((byteAt s.regs[b] i).toNat ≤ (byteAt s.regs[a] i).toNat)) ∧
        u.regs[a] = s.regs[a] ∧ u.regs[b] = s.regs[b]

/-- R138, R168: read back as numbers, the saturated lanes are the exact results clamped, and no flag changes. -/
def Obligations.SaturatedLanesAreClamped : Prop :=
    ∀ (c : Cond) (d n m : GPR) (s : State), conditionPassed c s.cpsr = true →
      let sh := fun (v : Word) (i : Nat) => ((v.extractLsb' (16 * i) 16 : Half)).toInt
      let uh := fun (v : Word) (i : Nat) => (((v.extractLsb' (16 * i) 16 : Half)).toNat : Int)
      let sb := fun (v : Word) (i : Nat) => (byteAt v i).toInt
      let ub := fun (v : Word) (i : Nat) => ((byteAt v i).toNat : Int)
      let a := s.regs[n]
      let b := s.regs[m]
      (∃ t, exec (.qadd16 c (regNum d) (regNum n) (regNum m)) s = .next t ∧ t.cpsr = s.cpsr ∧
        ∀ i < 2, sh t.regs[d] i = max (-32768) (min 32767 (sh a i + sh b i))) ∧
      (∃ t, exec (.qsub16 c (regNum d) (regNum n) (regNum m)) s = .next t ∧ t.cpsr = s.cpsr ∧
        ∀ i < 2, sh t.regs[d] i = max (-32768) (min 32767 (sh a i - sh b i))) ∧
      (∃ t, exec (.qadd8 c (regNum d) (regNum n) (regNum m)) s = .next t ∧ t.cpsr = s.cpsr ∧
        ∀ i < 4, sb t.regs[d] i = max (-128) (min 127 (sb a i + sb b i))) ∧
      (∃ t, exec (.qsub8 c (regNum d) (regNum n) (regNum m)) s = .next t ∧ t.cpsr = s.cpsr ∧
        ∀ i < 4, sb t.regs[d] i = max (-128) (min 127 (sb a i - sb b i))) ∧
      (∃ t, exec (.uqadd16 c (regNum d) (regNum n) (regNum m)) s = .next t ∧ t.cpsr = s.cpsr ∧
        ∀ i < 2, uh t.regs[d] i = min 65535 (uh a i + uh b i)) ∧
      (∃ t, exec (.uqsub16 c (regNum d) (regNum n) (regNum m)) s = .next t ∧ t.cpsr = s.cpsr ∧
        ∀ i < 2, uh t.regs[d] i = max 0 (uh a i - uh b i)) ∧
      (∃ t, exec (.uqadd8 c (regNum d) (regNum n) (regNum m)) s = .next t ∧ t.cpsr = s.cpsr ∧
        ∀ i < 4, ub t.regs[d] i = min 255 (ub a i + ub b i)) ∧
      (∃ t, exec (.uqsub8 c (regNum d) (regNum n) (regNum m)) s = .next t ∧ t.cpsr = s.cpsr ∧
        ∀ i < 4, ub t.regs[d] i = max 0 (ub a i - ub b i))

/-- R144, R174: the halved value always fits, so twice the lane is the exact result or one less. -/
def Obligations.HalvingFitsItsLane : Prop :=
    ∀ (c : Cond) (d n m : GPR) (s : State), conditionPassed c s.cpsr = true →
      let sh := fun (v : Word) (i : Nat) => ((v.extractLsb' (16 * i) 16 : Half)).toInt
      let uh := fun (v : Word) (i : Nat) => (((v.extractLsb' (16 * i) 16 : Half)).toNat : Int)
      let sb := fun (v : Word) (i : Nat) => (byteAt v i).toInt
      let ub := fun (v : Word) (i : Nat) => ((byteAt v i).toNat : Int)
      let halved := fun (r e : Int) => r = e / 2 ∧ (2 * r = e ∨ 2 * r = e - 1)
      let a := s.regs[n]
      let b := s.regs[m]
      (∃ t, exec (.shadd16 c (regNum d) (regNum n) (regNum m)) s = .next t ∧ t.cpsr = s.cpsr ∧
        ∀ i < 2, halved (sh t.regs[d] i) (sh a i + sh b i)) ∧
      (∃ t, exec (.shsub16 c (regNum d) (regNum n) (regNum m)) s = .next t ∧ t.cpsr = s.cpsr ∧
        ∀ i < 2, halved (sh t.regs[d] i) (sh a i - sh b i)) ∧
      (∃ t, exec (.shadd8 c (regNum d) (regNum n) (regNum m)) s = .next t ∧ t.cpsr = s.cpsr ∧
        ∀ i < 4, halved (sb t.regs[d] i) (sb a i + sb b i)) ∧
      (∃ t, exec (.shsub8 c (regNum d) (regNum n) (regNum m)) s = .next t ∧ t.cpsr = s.cpsr ∧
        ∀ i < 4, halved (sb t.regs[d] i) (sb a i - sb b i)) ∧
      (∃ t, exec (.uhadd16 c (regNum d) (regNum n) (regNum m)) s = .next t ∧ t.cpsr = s.cpsr ∧
        ∀ i < 2, halved (uh t.regs[d] i) (uh a i + uh b i)) ∧
      (∃ t, exec (.uhsub16 c (regNum d) (regNum n) (regNum m)) s = .next t ∧ t.cpsr = s.cpsr ∧
        ∀ i < 2, halved (sh t.regs[d] i) (uh a i - uh b i)) ∧
      (∃ t, exec (.uhadd8 c (regNum d) (regNum n) (regNum m)) s = .next t ∧ t.cpsr = s.cpsr ∧
        ∀ i < 4, halved (ub t.regs[d] i) (ub a i + ub b i)) ∧
      (∃ t, exec (.uhsub8 c (regNum d) (regNum n) (regNum m)) s = .next t ∧ t.cpsr = s.cpsr ∧
        ∀ i < 4, halved (sb t.regs[d] i) (ub a i - ub b i))

/-- R201: the two products of a dual multiply and their range. -/
def Obligations.HalfwordProductsAreExact : Prop :=
    ∀ (x : Bool) (m k : Word),
      let second := if x then ror32 k 16 else k
      bottomProduct x m k = (m.extractLsb' 0 16).toInt * (second.extractLsb' 0 16).toInt ∧
      topProduct x m k = (m.extractLsb' 16 16).toInt * (second.extractLsb' 16 16).toInt ∧
      (-(2 ^ 30) + 2 ^ 15 ≤ bottomProduct x m k ∧ bottomProduct x m k ≤ 2 ^ 30) ∧
      (-(2 ^ 30) + 2 ^ 15 ≤ topProduct x m k ∧ topProduct x m k ≤ 2 ^ 30) ∧
      (bottomProduct x m k = 2 ^ 30 ↔ m.extractLsb' 0 16 = 0x8000 ∧ second.extractLsb' 0 16 = 0x8000) ∧
      (topProduct x m k = 2 ^ 30 ↔ m.extractLsb' 16 16 = 0x8000 ∧ second.extractLsb' 16 16 = 0x8000) ∧
      (x = true → second.extractLsb' 0 16 = k.extractLsb' 16 16 ∧ second.extractLsb' 16 16 = k.extractLsb' 0 16)

/-- R204, R208: the corner case of SMUAD. -/
def Obligations.SmuadOverflowsOnlyOnFourMinima : Prop :=
    ∀ (c : Cond) (x : Bool) (d m k : GPR) (s : State), conditionPassed c s.cpsr = true → s.cpsr.q = false →
      ∃ t, exec (.smuad c x (regNum d) (regNum m) (regNum k)) s = .next t ∧
        (t.cpsr.q = true ↔ s.regs[m] = 0x80008000 ∧ s.regs[k] = 0x80008000) ∧
        (t.cpsr.q = true → t.regs[d] = 0x80000000)

/-- R206: the difference always fits 32 bits. -/
def Obligations.SmusdNeverOverflows : Prop :=
    ∀ (c : Cond) (x : Bool) (d m k : GPR) (s : State), conditionPassed c s.cpsr = true →
      ∃ t, exec (.smusd c x (regNum d) (regNum m) (regNum k)) s = .next t ∧ t.cpsr = s.cpsr ∧
        t.regs[d].toInt = bottomProduct x s.regs[m] s.regs[k] - topProduct x s.regs[m] s.regs[k] ∧
        -(2 ^ 31) + 2 ^ 15 ≤ t.regs[d].toInt ∧ t.regs[d].toInt ≤ 2 ^ 31 - 2 ^ 15

/-- R209: the table of `Q_DUAL_SUB`, from Q = 0. The parameter is held in `State.cfg` (log entry 1). -/
def Obligations.QDualSubDecidesWhichSetsQ : Prop :=
    ∀ (c : Cond) (x : Bool) (d m k n lo hi : GPR) (s : State), conditionPassed c s.cpsr = true →
      s.cpsr.q = false → lo ≠ hi →
      let diff := bottomProduct x s.regs[m] s.regs[k] - topProduct x s.regs[m] s.regs[k]
      let n32 := s.regs[n].toInt + diff
      let n64 := (s.regs[hi] ++ s.regs[lo]).toInt + diff
      ∃ t u, exec (.smlsd c x (regNum d) (regNum m) (regNum k) (regNum n)) s = .next t ∧
        exec (.smlsld c x (regNum lo) (regNum hi) (regNum m) (regNum k)) s = .next u ∧
        (s.cfg.qDualSub = .armArm →
          (t.cpsr.q = true ↔ n32 < -(2 ^ 31) ∨ 2 ^ 31 ≤ n32) ∧ u.cpsr.q = false) ∧
        (s.cfg.qDualSub = .sourceLiteral →
          t.cpsr.q = false ∧ (u.cpsr.q = true ↔ n64 < -(2 ^ 63) ∨ 2 ^ 63 ≤ n64))

/-- R213: the two ways of writing SMMLA are one. -/
def Obligations.SmmlaAddsToTheTopWord : Prop :=
    ∀ (c : Cond) (r : Bool) (d m k n : GPR) (s : State), conditionPassed c s.cpsr = true →
      ∃ t u, exec (.smmul c r (regNum d) (regNum m) (regNum k)) s = .next t ∧
        exec (.smmla c r (regNum d) (regNum m) (regNum k) (regNum n)) s = .next u ∧
        u.regs[d] = s.regs[n] + t.regs[d]

/-- R214: where the two values of `SMMLS_FORM` give different results. The parameter is held in `State.cfg` (log entry 1). -/
def Obligations.SmmlsFormsDifferByAtMostOne : Prop :=
    ∀ (c : Cond) (r : Bool) (d m k n : GPR) (s : State), conditionPassed c s.cpsr = true →
      let form := fun (f : SmmlsForm) => { s with cfg := { s.cfg with smmlsForm := f } }
      let low : Int := s.regs[m].toInt * s.regs[k].toInt % 2 ^ 32
      ∃ t u, exec (.smmls c r (regNum d) (regNum m) (regNum k) (regNum n)) (form .wide64) = .next t ∧
        exec (.smmls c r (regNum d) (regNum m) (regNum k) (regNum n)) (form .top32ThenSub) = .next u ∧
        (r = false → u.regs[d] = t.regs[d] + (if low = 0 then 0#32 else 1#32)) ∧
        (r = true → t.regs[d] = u.regs[d] + (if low = 2 ^ 31 then 1#32 else 0#32))

/-- R221: the corner cases of SSAT. -/
def Obligations.SsatResultInRange : Prop :=
    ∀ (c : Cond) (d m : GPR) (satImm : BitVec 5) (sh : ShiftType) (shiftImm : BitVec 5) (s : State),
      conditionPassed c s.cpsr = true → s.cpsr.q = false →
      ∃ t, exec (.ssat c (regNum d) satImm (regNum m) sh shiftImm) s = .next t ∧
        -(2 ^ satImm.toNat) ≤ t.regs[d].toInt ∧ t.regs[d].toInt < 2 ^ satImm.toNat ∧
        (t.cpsr.q = false ↔ t.regs[d] = satOperand sh shiftImm s.regs[m]) ∧
        (satImm = 31 → t.cpsr.q = false) ∧
        (sh = .asr → shiftImm = 0 → t.cpsr.q = false ∧ t.regs[d] = if s.regs[m].msb then 0xFFFFFFFF else 0)

/-- R222, under both values of `USAT_BOUND`, held in `State.cfg` (log entry 1). -/
def Obligations.UsatClampsNegativesToZero : Prop :=
    ∀ (c : Cond) (d m : GPR) (satImm : BitVec 5) (sh : ShiftType) (shiftImm : BitVec 5) (s : State),
      conditionPassed c s.cpsr = true → s.cpsr.q = false →
      ∃ t, exec (.usat c (regNum d) satImm (regNum m) sh shiftImm) s = .next t ∧
        (t.cpsr.q = false ↔ t.regs[d] = satOperand sh shiftImm s.regs[m]) ∧
        ((satOperand sh shiftImm s.regs[m]).msb = true → t.regs[d] = 0 ∧ t.cpsr.q = true) ∧
        (s.cfg.usatBound = .twoPowField → t.regs[d].toNat < 2 ^ satImm.toNat) ∧
        (s.cfg.usatBound = .twoPowFieldPlus1 → t.regs[d].toNat < 2 ^ (satImm.toNat + 1)) ∧
        (s.cfg.usatBound = .twoPowField → satImm = 0 → t.regs[d] = 0)

/-- R242, R240: the byte sum. -/
def Obligations.AbsoluteDifferencesSymmetricAndBounded : Prop :=
    (∀ m k : Word, absDiffSum m k = absDiffSum k m ∧ absDiffSum m k ≤ 1020 ∧ (absDiffSum m k = 0 ↔ m = k)) ∧
    (∀ (c : Cond) (d m k : GPR) (s : State), conditionPassed c s.cpsr = true →
      ∃ t, exec (.usad8 c (regNum d) (regNum m) (regNum k)) s = .next t ∧
        exec (.usad8 c (regNum d) (regNum k) (regNum m)) s = .next t ∧
        t.regs[d].toNat = absDiffSum s.regs[m] s.regs[k] ∧ t.regs[d].toNat ≤ 0x3FC ∧ t.cpsr = s.cpsr)

/-- R260, R261: the corner cases. -/
def Obligations.ReversingTwiceRestores : Prop :=
    ∀ (c : Cond) (d e m : GPR) (s : State), conditionPassed c s.cpsr = true →
      (∃ t u, exec (.rev c (regNum d) (regNum m)) s = .next t ∧ exec (.rev c (regNum e) (regNum d)) t = .next u ∧
        u.regs[e] = s.regs[m]) ∧
      (∃ t u, exec (.rev16 c (regNum d) (regNum m)) s = .next t ∧ exec (.rev16 c (regNum e) (regNum d)) t = .next u ∧
        u.regs[e] = s.regs[m]) ∧
      (∃ t u, exec (.rev c (regNum d) (regNum m)) s = .next t ∧ exec (.rev16 c (regNum d) (regNum m)) s = .next u ∧
        u.regs[d] = ror32 t.regs[d] 16)

/-- R251: a shift field of 0 is ASR #32; 16 moves the top halfword down. -/
def Obligations.PkhtbZeroShiftCopiesTheSign : Prop :=
    ∀ (c : Cond) (d n m : GPR) (s : State), conditionPassed c s.cpsr = true →
      (∃ t, exec (.pkhtb c (regNum d) (regNum n) (regNum m) 0) s = .next t ∧ t.cpsr = s.cpsr ∧
        t.regs[d] = hi16 s.regs[n] ++ (if s.regs[m].msb then 0xFFFF#16 else 0x0000#16)) ∧
      (∃ t, exec (.pkhtb c (regNum d) (regNum n) (regNum m) 16) s = .next t ∧ t.cpsr = s.cpsr ∧
        t.regs[d] = hi16 s.regs[n] ++ hi16 s.regs[m]) ∧
      (∃ t, exec (.pkhbt c (regNum d) (regNum n) (regNum m) 0) s = .next t ∧ t.cpsr = s.cpsr ∧
        t.regs[d] = hi16 s.regs[m] ++ lo16 s.regs[n]) ∧
      (∃ t, exec (.pkhbt c (regNum d) (regNum n) (regNum m) 16) s = .next t ∧ t.cpsr = s.cpsr ∧
        t.regs[d] = lo16 s.regs[m] ++ lo16 s.regs[n])
end

