-- ==== Sys2Proof/Laws/Memory.lean ====
section
/-! SUPPORT. Instruction memory: a read after a placing, and the canonical form that every placing keeps. -/

namespace Sys2Proof.Machine

@[simp] theorem Memory.readByte_nil (k : Nat) : Memory.readByte [] k = none := rfl

theorem Memory.readByte_cons (a : Nat) (b : Byte) (m : Memory) (k : Nat) :
    Memory.readByte ((a, b) :: m) k = if a = k then some b else Memory.readByte m k := rfl

/-- An address below every listed one is unmapped. -/
theorem Memory.readByte_eq_none_of_lt {m : Memory} {k : Nat} (h : ∀ c ∈ m, k < c.1) : m.readByte k = none := by
  induction m with
  | nil => rfl
  | cons c m ih =>
    have hc : k < c.1 := h c (by simp)
    rw [show c = (c.1, c.2) from rfl, Memory.readByte_cons, if_neg (by omega)]
    exact ih fun d hd => h d (by simp [hd])

/-- An address that is not listed is unmapped (R40). -/
theorem Memory.readByte_eq_none_of_not_mem {m : Memory} {k : Nat} (h : k ∉ m.map Prod.fst) : m.readByte k = none := by
  induction m with
  | nil => rfl
  | cons c m ih =>
    simp only [List.map_cons, List.mem_cons, not_or] at h
    rw [show c = (c.1, c.2) from rfl, Memory.readByte_cons, if_neg (Ne.symm h.1)]
    exact ih h.2

/-- A listed address reads as some byte. -/
theorem Memory.readByte_isSome_of_mem {m : Memory} {k : Nat} (h : k ∈ m.map Prod.fst) : ∃ b, m.readByte k = some b := by
  induction m with
  | nil => simp at h
  | cons c m ih =>
    rw [show c = (c.1, c.2) from rfl, Memory.readByte_cons]
    by_cases hk : c.1 = k
    · exact ⟨c.2, by simp [hk]⟩
    · rw [if_neg hk]
      refine ih ?_
      simpa [Ne.symm hk] using h

/-- The canonical form, as a fact about the list: rising addresses, each a 32-bit one. -/
theorem Memory.wf_iff {m : Memory} : m.wf = true ↔ (m.map Prod.fst).Pairwise (· < ·) ∧ ∀ c ∈ m, c.1 < 2 ^ 32 := by
  induction m with
  | nil => simp [Memory.wf]
  | cons c m ih =>
    cases m with
    | nil => simp [Memory.wf]
    | cons d m =>
      simp only [Memory.wf, Bool.and_eq_true, decide_eq_true_eq, ih]
      constructor
      · rintro ⟨hcd, hp, hb⟩
        have hd := hb d (by simp)
        simp only [List.map_cons, List.pairwise_cons, List.mem_cons, forall_eq_or_imp] at hp ⊢
        refine ⟨⟨⟨hcd, fun a ha => lt_trans hcd (hp.1 a ha)⟩, hp⟩, ⟨by omega, hd, fun e he => hb e (by simp [he])⟩⟩
      · rintro ⟨hp, hb⟩
        rw [List.map_cons, List.pairwise_cons] at hp
        exact ⟨hp.1 d.1 (by simp), hp.2, fun e he => hb e (List.mem_cons_of_mem _ he)⟩

@[simp] theorem State.reset_mem_wf : State.reset.mem.wf = true := rfl

/-- A byte placed is the byte read there. -/
theorem Memory.readByte_writeByte_same (m : Memory) (k : Word) (v : Byte) : (m.writeByte k v).readByte k.toNat = some v := by
  induction m with
  | nil => simp [Memory.writeByte, Memory.readByte]
  | cons c m ih =>
    obtain ⟨a, b⟩ := c
    simp only [Memory.writeByte]
    split
    · simp [Memory.readByte]
    · split
      · simp [Memory.readByte, *]
      · rename_i h
        simp [Memory.readByte, Ne.symm h, ih]

/-- A byte placed changes no other address. -/
theorem Memory.readByte_writeByte_ne (m : Memory) {k : Word} {j : Nat} (v : Byte) (h : j ≠ k.toNat) :
    (m.writeByte k v).readByte j = m.readByte j := by
  induction m with
  | nil => simp [Memory.writeByte, Memory.readByte, Ne.symm h]
  | cons c m ih =>
    obtain ⟨a, b⟩ := c
    simp only [Memory.writeByte]
    split
    · simp [Memory.readByte, Ne.symm h]
    · split
      · rename_i h'
        simp [Memory.readByte, ← h', Ne.symm h]
      · simp [Memory.readByte, ih]

/-- What a placing lists: what was listed, and the address placed. -/
theorem Memory.mem_map_writeByte {m : Memory} {k : Word} {v : Byte} {a : Nat} (h : a ∈ (m.writeByte k v).map Prod.fst) :
    a ∈ m.map Prod.fst ∨ a = k.toNat := by
  induction m with
  | nil => simpa [Memory.writeByte] using h
  | cons c m ih =>
    obtain ⟨x, b⟩ := c
    simp only [Memory.writeByte] at h
    split at h
    · simp at h ⊢; tauto
    · split at h
      · simp at h ⊢; tauto
      · simp only [List.map_cons, List.mem_cons] at h ⊢
        rcases h with h | h
        · exact .inl (.inl h)
        · exact (ih h).imp .inr id

/-- Placing over a listed address keeps the list of addresses. -/
theorem Memory.map_writeByte_of_mem {m : Memory} {k : Word} {v : Byte} (hm : (m.map Prod.fst).Pairwise (· < ·))
    (h : k.toNat ∈ m.map Prod.fst) : (m.writeByte k v).map Prod.fst = m.map Prod.fst := by
  induction m with
  | nil => simp at h
  | cons c m ih =>
    obtain ⟨x, b⟩ := c
    simp only [List.map_cons, List.pairwise_cons, List.mem_cons] at hm h
    simp only [Memory.writeByte]
    by_cases hx : k.toNat = x
    · rw [if_neg (by omega), if_pos hx]; rfl
    · have hk := h.resolve_left hx
      have := hm.1 _ hk
      rw [if_neg (by omega), if_neg hx, List.map_cons, ih hm.2 hk]
      rfl

/-- Placing a byte keeps the canonical form. -/
theorem Memory.writeByte_wf {m : Memory} (k : Word) (v : Byte) (h : m.wf = true) : (m.writeByte k v).wf = true := by
  rw [Memory.wf_iff] at h ⊢
  have hk := k.isLt
  induction m with
  | nil => simpa [Memory.writeByte] using hk
  | cons c m ih =>
    obtain ⟨x, b⟩ := c
    obtain ⟨hp, hb⟩ := h
    simp only [List.map_cons, List.pairwise_cons] at hp
    simp only [Memory.writeByte]
    by_cases h1 : k.toNat < x
    · rw [if_pos h1]
      refine ⟨?_, ?_⟩
      · simp only [List.map_cons, List.pairwise_cons, List.mem_cons, forall_eq_or_imp]
        exact ⟨⟨h1, fun a ha => lt_trans h1 (hp.1 a ha)⟩, hp⟩
      · intro c hc
        rcases List.mem_cons.1 hc with rfl | hc
        · exact hk
        · exact hb c hc
    · by_cases h2 : k.toNat = x
      · rw [if_neg h1, if_pos h2]
        refine ⟨by simpa using hp, ?_⟩
        intro c hc
        rcases List.mem_cons.1 hc with rfl | hc
        · exact hb (x, b) (by simp)
        · exact hb c (by simp [hc])
      · rw [if_neg h1, if_neg h2]
        obtain ⟨ihp, ihb⟩ := ih ⟨hp.2, fun c hc => hb c (by simp [hc])⟩
        refine ⟨?_, ?_⟩
        · rw [List.map_cons, List.pairwise_cons]
          refine ⟨fun a ha => ?_, ihp⟩
          rcases Memory.mem_map_writeByte ha with ha | rfl
          · exact hp.1 a ha
          · show x < _; omega
        · intro c hc
          rcases List.mem_cons.1 hc with rfl | hc
          · exact hb (x, b) (by simp)
          · exact ihb c hc

/-- Placing a word keeps the canonical form. -/
theorem overwriteWord_wf {m : Memory} (big : Bool) (pc w : Word) (h : m.wf = true) : (overwriteWord m big pc w).wf = true := by
  unfold overwriteWord
  exact Memory.writeByte_wf _ _ (Memory.writeByte_wf _ _ (Memory.writeByte_wf _ _ (Memory.writeByte_wf _ _ h)))

@[simp] theorem wordCells_length (big : Bool) (a : Nat) (w : Word) : (wordCells big a w).length = 4 := rfl

@[simp] theorem programCells_length (big : Bool) (a : Nat) (p : List Word) : (programCells big a p).length = 4 * p.length := by
  induction p generalizing a with
  | nil => rfl
  | cons w p ih => simp [programCells, ih]; omega

/-- PROGRAM occupies the bytes from its start on, without a gap (R40). -/
theorem programCells_map_fst (big : Bool) (a : Nat) (p : List Word) :
    (programCells big a p).map Prod.fst = List.range' a (4 * p.length) := by
  induction p generalizing a with
  | nil => rfl
  | cons w p ih =>
    rw [programCells, List.map_append, ih, List.length_cons, show 4 * (p.length + 1) = 4 + 4 * p.length by omega,
      ← List.range'_append_1]
    rfl

/-- The placing of PROGRAM has the canonical form. -/
theorem programCells_wf (big : Bool) {a : Nat} {p : List Word} (h : a + 4 * p.length ≤ 2 ^ 32) :
    (programCells big a p).wf = true := by
  rw [Memory.wf_iff, programCells_map_fst]
  refine ⟨List.pairwise_lt_range', fun c hc => ?_⟩
  have hm := List.mem_map_of_mem (f := Prod.fst) hc
  rw [programCells_map_fst, List.mem_range'_1] at hm
  omega

end Sys2Proof.Machine
end

