-- ==== Sys2Proof/Laws/State.lean ====
section
/-! SUPPORT. What each update of the state leaves of each field: one lemma per field per update. -/

namespace Sys2Proof.Machine

@[simp] theorem State.setReg_pc (s : State) (d : GPR) (v : Word) : (s.setReg d v).pc = s.pc := rfl
@[simp] theorem State.setReg_cpsr (s : State) (d : GPR) (v : Word) : (s.setReg d v).cpsr = s.cpsr := rfl
@[simp] theorem State.setReg_mem (s : State) (d : GPR) (v : Word) : (s.setReg d v).mem = s.mem := rfl
@[simp] theorem State.setReg_entryPc (s : State) (d : GPR) (v : Word) : (s.setReg d v).entryPc = s.entryPc := rfl
@[simp] theorem State.setReg_cfg (s : State) (d : GPR) (v : Word) : (s.setReg d v).cfg = s.cfg := rfl

@[simp] theorem State.reg_setReg_same (s : State) (d : GPR) (v : Word) : (s.setReg d v).reg d = v := by
  simp [State.reg, State.setReg]

theorem State.reg_setReg_ne (s : State) {d r : GPR} (v : Word) (h : r ≠ d) : (s.setReg d v).reg r = s.reg r := by
  have : (d : Nat) ≠ r := fun e => h (Fin.ext e.symm)
  simp [State.reg, State.setReg, this]

@[simp] theorem State.advance_regs (s : State) : s.advance.regs = s.regs := rfl
@[simp] theorem State.advance_pc (s : State) : s.advance.pc = s.pc + 4 := rfl
@[simp] theorem State.advance_cpsr (s : State) : s.advance.cpsr = s.cpsr := rfl
@[simp] theorem State.advance_mem (s : State) : s.advance.mem = s.mem := rfl
@[simp] theorem State.advance_entryPc (s : State) : s.advance.entryPc = s.entryPc := rfl
@[simp] theorem State.advance_cfg (s : State) : s.advance.cfg = s.cfg := rfl
@[simp] theorem State.reg_advance (s : State) (r : GPR) : s.advance.reg r = s.reg r := rfl

@[simp] theorem State.raiseQ_regs (s : State) (b : Bool) : (s.raiseQ b).regs = s.regs := rfl
@[simp] theorem State.raiseQ_pc (s : State) (b : Bool) : (s.raiseQ b).pc = s.pc := rfl
@[simp] theorem State.raiseQ_mem (s : State) (b : Bool) : (s.raiseQ b).mem = s.mem := rfl
@[simp] theorem State.raiseQ_entryPc (s : State) (b : Bool) : (s.raiseQ b).entryPc = s.entryPc := rfl
@[simp] theorem State.raiseQ_cfg (s : State) (b : Bool) : (s.raiseQ b).cfg = s.cfg := rfl
@[simp] theorem State.raiseQ_n (s : State) (b : Bool) : (s.raiseQ b).cpsr.n = s.cpsr.n := rfl
@[simp] theorem State.raiseQ_z (s : State) (b : Bool) : (s.raiseQ b).cpsr.z = s.cpsr.z := rfl
@[simp] theorem State.raiseQ_c (s : State) (b : Bool) : (s.raiseQ b).cpsr.c = s.cpsr.c := rfl
@[simp] theorem State.raiseQ_v (s : State) (b : Bool) : (s.raiseQ b).cpsr.v = s.cpsr.v := rfl
@[simp] theorem State.raiseQ_q (s : State) (b : Bool) : (s.raiseQ b).cpsr.q = (s.cpsr.q || b) := rfl
@[simp] theorem State.raiseQ_ge (s : State) (b : Bool) : (s.raiseQ b).cpsr.ge = s.cpsr.ge := rfl
@[simp] theorem State.reg_raiseQ (s : State) (b : Bool) (r : GPR) : (s.raiseQ b).reg r = s.reg r := rfl

@[simp] theorem State.raiseQ_false (s : State) : s.raiseQ false = s := by simp [State.raiseQ]

@[simp] theorem State.setGE_regs (s : State) (g : BitVec 4) : (s.setGE g).regs = s.regs := rfl
@[simp] theorem State.setGE_pc (s : State) (g : BitVec 4) : (s.setGE g).pc = s.pc := rfl
@[simp] theorem State.setGE_mem (s : State) (g : BitVec 4) : (s.setGE g).mem = s.mem := rfl
@[simp] theorem State.setGE_entryPc (s : State) (g : BitVec 4) : (s.setGE g).entryPc = s.entryPc := rfl
@[simp] theorem State.setGE_cfg (s : State) (g : BitVec 4) : (s.setGE g).cfg = s.cfg := rfl
@[simp] theorem State.setGE_n (s : State) (g : BitVec 4) : (s.setGE g).cpsr.n = s.cpsr.n := rfl
@[simp] theorem State.setGE_z (s : State) (g : BitVec 4) : (s.setGE g).cpsr.z = s.cpsr.z := rfl
@[simp] theorem State.setGE_c (s : State) (g : BitVec 4) : (s.setGE g).cpsr.c = s.cpsr.c := rfl
@[simp] theorem State.setGE_v (s : State) (g : BitVec 4) : (s.setGE g).cpsr.v = s.cpsr.v := rfl
@[simp] theorem State.setGE_q (s : State) (g : BitVec 4) : (s.setGE g).cpsr.q = s.cpsr.q := rfl
@[simp] theorem State.setGE_ge (s : State) (g : BitVec 4) : (s.setGE g).cpsr.ge = g := rfl
@[simp] theorem State.reg_setGE (s : State) (g : BitVec 4) (r : GPR) : (s.setGE g).reg r = s.reg r := rfl

/-! `State.apply`: the destination, Q and, where the effect writes them, the GE flags. -/

@[simp] theorem State.apply_pc (s : State) (d : GPR) (e : Effect) : (s.apply d e).pc = s.pc := by
  rcases e with ⟨v, _ | g, q⟩ <;> rfl
@[simp] theorem State.apply_mem (s : State) (d : GPR) (e : Effect) : (s.apply d e).mem = s.mem := by
  rcases e with ⟨v, _ | g, q⟩ <;> rfl
@[simp] theorem State.apply_entryPc (s : State) (d : GPR) (e : Effect) : (s.apply d e).entryPc = s.entryPc := by
  rcases e with ⟨v, _ | g, q⟩ <;> rfl
@[simp] theorem State.apply_cfg (s : State) (d : GPR) (e : Effect) : (s.apply d e).cfg = s.cfg := by
  rcases e with ⟨v, _ | g, q⟩ <;> rfl
@[simp] theorem State.apply_n (s : State) (d : GPR) (e : Effect) : (s.apply d e).cpsr.n = s.cpsr.n := by
  rcases e with ⟨v, _ | g, q⟩ <;> rfl
@[simp] theorem State.apply_z (s : State) (d : GPR) (e : Effect) : (s.apply d e).cpsr.z = s.cpsr.z := by
  rcases e with ⟨v, _ | g, q⟩ <;> rfl
@[simp] theorem State.apply_c (s : State) (d : GPR) (e : Effect) : (s.apply d e).cpsr.c = s.cpsr.c := by
  rcases e with ⟨v, _ | g, q⟩ <;> rfl
@[simp] theorem State.apply_v (s : State) (d : GPR) (e : Effect) : (s.apply d e).cpsr.v = s.cpsr.v := by
  rcases e with ⟨v, _ | g, q⟩ <;> rfl
@[simp] theorem State.apply_q (s : State) (d : GPR) (e : Effect) : (s.apply d e).cpsr.q = (s.cpsr.q || e.setQ) := by
  rcases e with ⟨v, _ | g, q⟩ <;> rfl
@[simp] theorem State.apply_ge (s : State) (d : GPR) (e : Effect) : (s.apply d e).cpsr.ge = e.ge.getD s.cpsr.ge := by
  rcases e with ⟨v, _ | g, q⟩ <;> rfl
@[simp] theorem State.apply_regs (s : State) (d : GPR) (e : Effect) : (s.apply d e).regs = s.regs.set d e.value := by
  rcases e with ⟨v, _ | g, q⟩ <;> rfl
@[simp] theorem State.reg_apply_same (s : State) (d : GPR) (e : Effect) : (s.apply d e).reg d = e.value := by
  simp [State.reg]
theorem State.reg_apply_ne (s : State) {d r : GPR} (e : Effect) (h : r ≠ d) : (s.apply d e).reg r = s.reg r := by
  have : (d : Nat) ≠ r := fun h' => h (Fin.ext h'.symm)
  simp [State.reg, this]

end Sys2Proof.Machine
end

