-- ==== Sys2Proof/Laws/Ops.lean ====
section
/-! SUPPORT. What each shared operation can do, said once: if it answers next, then with these registers and this state; and
when it does. The statements about instructions cite these instead of unfolding the operations. -/

namespace Sys2Proof.Machine

@[simp] theorem regNum_toNat (d : GPR) : (regNum d).toNat = d := by
  have := d.isLt
  simp [regNum]; omega

@[simp] theorem gpr?_regNum (d : GPR) : gpr? (regNum d) = some d := by
  simp [gpr?]

theorem regNum_injective {d e : GPR} (h : regNum d = regNum e) : d = e := by
  simpa using congrArg gpr? h

@[simp] theorem regNum_inj {d e : GPR} : regNum d = regNum e ↔ d = e := ⟨regNum_injective, congrArg _⟩

@[simp] theorem regNum_ne_fifteen (d : GPR) : regNum d ≠ 15#4 := by
  intro h
  have := congrArg BitVec.toNat h
  have := d.isLt
  simp at *; omega

/-- The register a number names has that number. -/
theorem eq_regNum_of_gpr? {r : RegNum} {d : GPR} (h : gpr? r = some d) : r = regNum d := by
  unfold gpr? at h
  split at h
  · obtain rfl := Option.some.inj h
    apply BitVec.eq_of_toNat_eq
    simp
  · cases h

theorem gpr?_eq_some_iff {r : RegNum} {d : GPR} : gpr? r = some d ↔ r = regNum d :=
  ⟨eq_regNum_of_gpr?, fun h => h ▸ gpr?_regNum d⟩

/-- Only register number 15 names no register (R21). -/
theorem gpr?_eq_none_iff {r : RegNum} : gpr? r = none ↔ r = 15 := by
  constructor
  · intro h
    have hr := r.isLt
    have : ¬ r.toNat < 15 := by intro hlt; simp [gpr?, hlt] at h
    apply BitVec.eq_of_toNat_eq
    simp; omega
  · rintro rfl; rfl

@[simp] theorem gpr?_fifteen : gpr? 15#4 = none := rfl

/-- A register number is 15 or the number of a register. -/
theorem regNum_cases (r : RegNum) : r = 15#4 ∨ ∃ d, r = regNum d := by
  cases h : gpr? r with
  | none => exact .inl (gpr?_eq_none_iff.1 h)
  | some d => exact .inr ⟨d, eq_regNum_of_gpr? h⟩

@[simp] theorem fifteen_ne_regNum (d : GPR) : 15#4 ≠ regNum d := fun h => regNum_ne_fifteen d h.symm

/-- The state after an instruction whose body is one effect (R52). -/
def afterEffect (c : Cond) (s : State) (d : GPR) (e : Effect) : State :=
  (if conditionPassed c s.cpsr then s.apply d e else s).advance

theorem complete_eq_next {c : Cond} {s t : State} {f : State → State} :
    complete c s f = .next t ↔ (if conditionPassed c s.cpsr then f s else s).advance = t := by
  simp [complete]

@[simp] theorem complete_ne_refused (c : Cond) (s : State) (f : State → State) (r : Refusal) :
    complete c s f ≠ .refused r := by
  simp [complete]

theorem complete_apply (c : Cond) (s : State) (d : GPR) (e : State → Effect) :
    complete c s (fun u => u.apply d (e u)) = .next (afterEffect c s d (e s)) := rfl

/-- All that `unary` can do when it answers a next state. -/
theorem unary_eq_next {c : Cond} {rd rm : RegNum} {s t : State} {f : Word → Effect} :
    unary c rd rm s f = .next t ↔
      ∃ d m, rd = regNum d ∧ rm = regNum m ∧ afterEffect c s d (f (s.reg m)) = t := by
  rcases regNum_cases rd with rfl | ⟨d, rfl⟩ <;> rcases regNum_cases rm with rfl | ⟨m, rfl⟩ <;>
    simp [unary, complete_eq_next, afterEffect]

/-- All that `binary` can do when it answers a next state. -/
theorem binary_eq_next {c : Cond} {rd ra rb : RegNum} {s t : State} {f : Word → Word → Effect} :
    binary c rd ra rb s f = .next t ↔
      ∃ d a b, rd = regNum d ∧ ra = regNum a ∧ rb = regNum b ∧ afterEffect c s d (f (s.reg a) (s.reg b)) = t := by
  rcases regNum_cases rd with rfl | ⟨d, rfl⟩ <;> rcases regNum_cases ra with rfl | ⟨a, rfl⟩ <;>
    rcases regNum_cases rb with rfl | ⟨b, rfl⟩ <;> simp [binary, complete_eq_next, afterEffect]

/-- All that `ternary` can do when it answers a next state. -/
theorem ternary_eq_next {c : Cond} {rd ra rb rn : RegNum} {s t : State} {f : Word → Word → Word → Effect} :
    ternary c rd ra rb rn s f = .next t ↔
      ∃ d a b n, rd = regNum d ∧ ra = regNum a ∧ rb = regNum b ∧ rn = regNum n ∧
        afterEffect c s d (f (s.reg a) (s.reg b) (s.reg n)) = t := by
  rcases regNum_cases rd with rfl | ⟨d, rfl⟩ <;> rcases regNum_cases ra with rfl | ⟨a, rfl⟩ <;>
    rcases regNum_cases rb with rfl | ⟨b, rfl⟩ <;> rcases regNum_cases rn with rfl | ⟨n, rfl⟩ <;>
    simp [ternary, complete_eq_next, afterEffect]

/-- The body of `longAccumulate` (R210, R211). -/
def longBody (lo hi m k : GPR) (f : Int → Word → Word → Int) (q : Int → Bool) (s : State) : State :=
  let n := f (s.reg hi ++ s.reg lo : Dword).toInt (s.reg m) (s.reg k)
  ((s.setReg lo ((trunc 64 n).extractLsb' 0 32)).setReg hi ((trunc 64 n).extractLsb' 32 32)).raiseQ (q n)

/-- All that `longAccumulate` can do when it answers a next state. -/
theorem longAccumulate_eq_next {c : Cond} {rdLo rdHi rm rs : RegNum} {s t : State} {f : Int → Word → Word → Int}
    {q : Int → Bool} :
    longAccumulate c rdLo rdHi rm rs s f q = .next t ↔
      ∃ lo hi m k, rdLo = regNum lo ∧ rdHi = regNum hi ∧ rm = regNum m ∧ rs = regNum k ∧ lo ≠ hi ∧
        (if conditionPassed c s.cpsr then longBody lo hi m k f q s else s).advance = t := by
  rcases regNum_cases rdLo with rfl | ⟨lo, rfl⟩ <;> rcases regNum_cases rdHi with rfl | ⟨hi, rfl⟩ <;>
    rcases regNum_cases rm with rfl | ⟨m, rfl⟩ <;> rcases regNum_cases rs with rfl | ⟨k, rfl⟩ <;>
    simp [longAccumulate, longBody]
  by_cases h : lo = hi <;> simp [h, complete_eq_next]

/-- With registers in every field, the operations complete. -/
@[simp] theorem unary_regNum (c : Cond) (d m : GPR) (s : State) (f : Word → Effect) :
    unary c (regNum d) (regNum m) s f = complete c s fun s => s.apply d (f (s.reg m)) := by
  simp [unary]

@[simp] theorem binary_regNum (c : Cond) (d a b : GPR) (s : State) (f : Word → Word → Effect) :
    binary c (regNum d) (regNum a) (regNum b) s f = complete c s fun s => s.apply d (f (s.reg a) (s.reg b)) := by
  simp [binary]

@[simp] theorem ternary_regNum (c : Cond) (d a b n : GPR) (s : State) (f : Word → Word → Word → Effect) :
    ternary c (regNum d) (regNum a) (regNum b) (regNum n) s f =
      complete c s fun s => s.apply d (f (s.reg a) (s.reg b) (s.reg n)) := by
  simp [ternary]

theorem longAccumulate_regNum (c : Cond) {lo hi : GPR} (m k : GPR) (s : State) (f : Int → Word → Word → Int)
    (q : Int → Bool) (h : lo ≠ hi) :
    longAccumulate c (regNum lo) (regNum hi) (regNum m) (regNum k) s f q = complete c s (longBody lo hi m k f q) := by
  simp [longAccumulate, h, complete, longBody]

/-- When the operations refuse: exactly with a register field of 15 (R53). -/
theorem unary_eq_refused {c : Cond} {rd rm : RegNum} {s : State} {f : Word → Effect} {r : Refusal} :
    unary c rd rm s f = .refused r ↔ (rd = 15 ∨ rm = 15) ∧ .unpredictableR15 = r := by
  rcases regNum_cases rd with rfl | ⟨d, rfl⟩ <;> rcases regNum_cases rm with rfl | ⟨m, rfl⟩ <;> simp [unary]

theorem binary_eq_refused {c : Cond} {rd ra rb : RegNum} {s : State} {f : Word → Word → Effect} {r : Refusal} :
    binary c rd ra rb s f = .refused r ↔ (rd = 15 ∨ ra = 15 ∨ rb = 15) ∧ .unpredictableR15 = r := by
  rcases regNum_cases rd with rfl | ⟨d, rfl⟩ <;> rcases regNum_cases ra with rfl | ⟨a, rfl⟩ <;>
    rcases regNum_cases rb with rfl | ⟨b, rfl⟩ <;> simp [binary]

theorem ternary_eq_refused {c : Cond} {rd ra rb rn : RegNum} {s : State} {f : Word → Word → Word → Effect} {r : Refusal} :
    ternary c rd ra rb rn s f = .refused r ↔ (rd = 15 ∨ ra = 15 ∨ rb = 15 ∨ rn = 15) ∧ .unpredictableR15 = r := by
  rcases regNum_cases rd with rfl | ⟨d, rfl⟩ <;> rcases regNum_cases ra with rfl | ⟨a, rfl⟩ <;>
    rcases regNum_cases rb with rfl | ⟨b, rfl⟩ <;> rcases regNum_cases rn with rfl | ⟨n, rfl⟩ <;> simp [ternary]

/-- The 64-bit accumulate refuses a field of 15 first, then two equal destinations (R53, R203, R303). -/
theorem longAccumulate_eq_refused {c : Cond} {rdLo rdHi rm rs : RegNum} {s : State} {f : Int → Word → Word → Int}
    {q : Int → Bool} {r : Refusal} :
    longAccumulate c rdLo rdHi rm rs s f q = .refused r ↔
      if rdLo = 15 ∨ rdHi = 15 ∨ rm = 15 ∨ rs = 15 then .unpredictableR15 = r
      else rdLo = rdHi ∧ .unpredictableRdHiRdLo = r := by
  rcases regNum_cases rdLo with rfl | ⟨lo, rfl⟩ <;> rcases regNum_cases rdHi with rfl | ⟨hi, rfl⟩ <;>
    rcases regNum_cases rm with rfl | ⟨m, rfl⟩ <;> rcases regNum_cases rs with rfl | ⟨k, rfl⟩ <;>
    simp [longAccumulate]
  by_cases h : lo = hi <;> simp [h]

/-! What the wrapper around an effect leaves of each field. -/

@[simp] theorem afterEffect_pc (c : Cond) (s : State) (d : GPR) (e : Effect) : (afterEffect c s d e).pc = s.pc + 4 := by
  unfold afterEffect; split <;> simp
@[simp] theorem afterEffect_mem (c : Cond) (s : State) (d : GPR) (e : Effect) : (afterEffect c s d e).mem = s.mem := by
  unfold afterEffect; split <;> simp
@[simp] theorem afterEffect_entryPc (c : Cond) (s : State) (d : GPR) (e : Effect) :
    (afterEffect c s d e).entryPc = s.entryPc := by
  unfold afterEffect; split <;> simp
@[simp] theorem afterEffect_cfg (c : Cond) (s : State) (d : GPR) (e : Effect) : (afterEffect c s d e).cfg = s.cfg := by
  unfold afterEffect; split <;> simp
theorem afterEffect_reg_ne (c : Cond) (s : State) {d r : GPR} (e : Effect) (h : r ≠ d) :
    (afterEffect c s d e).reg r = s.reg r := by
  unfold afterEffect; split <;> simp [State.reg_apply_ne, h]

/-- A step that answers next ran the instruction that the fetched word decodes to (R41, R52). -/
theorem step_eq_next {s t : State} :
    step s = .next t ↔
      s.runOver = false ∧ ∃ w i, s.fetchWord = some w ∧ decodeFor s.cfg w = .ok i ∧ exec i s = .next t := by
  unfold step
  cases hr : s.runOver
  · cases hf : s.fetchWord with
    | none => simp
    | some w =>
      cases hd : decodeFor s.cfg w with
      | error e => simp [hd]
      | ok i => simp [hd]
  · simp

/-- A step faults only at the end of the run, where no instruction faults. -/
theorem step_of_runOver {s : State} (h : s.runOver = true) : step s = .fault .endOfRun := by
  simp [step, h]

end Sys2Proof.Machine
end

