-- ==== Sys2Proof/Laws/PerInstr.lean ====
section
/-! SUPPORT. Per instruction: the word the encoder writes (R51) matches the instruction's row of the opcode table (R55, R56)
and holds its condition. The fixed bits of each format under the masks of its rows come first. -/

namespace Sys2Proof.Laws

open Sys2Proof

/-! ### The condition field and the marker fields -/

theorem extWord_cond (c : Cond) (op : BitVec 3) (rn rd : RegNum) (rot : BitVec 2) (rm : RegNum) :
    nibbleAt (extWord c op rn rd rot rm) 28 = c.bits := by
  unfold nibbleAt extWord
  repeat rw [BitVec.extractLsb'_append_eq_of_le (by decide)]
  simp

theorem selWord_cond (c : Cond) (rn rd rm : RegNum) :
    nibbleAt (selWord c rn rd rm) 28 = c.bits := by
  unfold nibbleAt selWord
  repeat rw [BitVec.extractLsb'_append_eq_of_le (by decide)]
  simp

theorem pasWord_cond (c : Cond) (op1 : BitVec 3) (rn rd : RegNum) (op2 : BitVec 3) (rm : RegNum) :
    nibbleAt (pasWord c op1 rn rd op2 rm) 28 = c.bits := by
  unfold nibbleAt pasWord
  repeat rw [BitVec.extractLsb'_append_eq_of_le (by decide)]
  simp

theorem mulWord_cond (c : Cond) (op1 : BitVec 3) (b19 b15 rs : RegNum) (op2 : BitVec 2) (xr : Bool) (rm : RegNum) :
    nibbleAt (mulWord c op1 b19 b15 rs op2 xr rm) 28 = c.bits := by
  unfold nibbleAt mulWord
  repeat rw [BitVec.extractLsb'_append_eq_of_le (by decide)]
  simp

theorem satWord_cond (c : Cond) (op : BitVec 7) (satImm : BitVec 5) (rd : RegNum) (shiftImm : BitVec 5) (sh : ShiftType) (rm : RegNum) :
    nibbleAt (satWord c op satImm rd shiftImm sh rm) 28 = c.bits := by
  unfold nibbleAt satWord
  repeat rw [BitVec.extractLsb'_append_eq_of_le (by decide)]
  simp

theorem sat16Word_cond (c : Cond) (op : BitVec 7) (satImm : BitVec 4) (rd rm : RegNum) :
    nibbleAt (sat16Word c op satImm rd rm) 28 = c.bits := by
  unfold nibbleAt sat16Word
  repeat rw [BitVec.extractLsb'_append_eq_of_le (by decide)]
  simp

theorem usadWord_cond (c : Cond) (rd b15 rs rm : RegNum) :
    nibbleAt (usadWord c rd b15 rs rm) 28 = c.bits := by
  unfold nibbleAt usadWord
  repeat rw [BitVec.extractLsb'_append_eq_of_le (by decide)]
  simp

theorem pkhWord_cond (c : Cond) (rn rd : RegNum) (shiftImm : BitVec 5) (op : BitVec 3) (rm : RegNum) :
    nibbleAt (pkhWord c rn rd shiftImm op rm) 28 = c.bits := by
  unfold nibbleAt pkhWord
  repeat rw [BitVec.extractLsb'_append_eq_of_le (by decide)]
  simp

theorem revWord_cond (c : Cond) (opA : BitVec 1) (rd : RegNum) (opB : BitVec 1) (rm : RegNum) :
    nibbleAt (revWord c opA rd opB rm) 28 = c.bits := by
  unfold nibbleAt revWord
  repeat rw [BitVec.extractLsb'_append_eq_of_le (by decide)]
  simp

theorem extWord_marker (c : Cond) (op : BitVec 3) (rn rd : RegNum) (rot : BitVec 2) (rm : RegNum) :
    nibbleAt (extWord c op rn rd rot rm) 16 = rn := by
  unfold nibbleAt extWord
  repeat rw [BitVec.extractLsb'_append_eq_of_le (by decide)]
  rw [BitVec.extractLsb'_append_eq_of_add_le (by decide)]
  simp

theorem mulWord_marker (c : Cond) (op1 : BitVec 3) (b19 b15 rs : RegNum) (op2 : BitVec 2) (xr : Bool) (rm : RegNum) :
    nibbleAt (mulWord c op1 b19 b15 rs op2 xr rm) 12 = b15 := by
  unfold nibbleAt mulWord
  repeat rw [BitVec.extractLsb'_append_eq_of_le (by decide)]
  rw [BitVec.extractLsb'_append_eq_of_add_le (by decide)]
  simp

theorem usadWord_marker (c : Cond) (rd b15 rs rm : RegNum) :
    nibbleAt (usadWord c rd b15 rs rm) 12 = b15 := by
  unfold nibbleAt usadWord
  repeat rw [BitVec.extractLsb'_append_eq_of_le (by decide)]
  rw [BitVec.extractLsb'_append_eq_of_add_le (by decide)]
  simp

/-! ### The fixed bits -/

theorem and_ones1 (x : BitVec 1) : x &&& 1#1 = x := BitVec.and_allOnes

theorem and_ones2 (x : BitVec 2) : x &&& 3#2 = x := BitVec.and_allOnes

theorem and_ones3 (x : BitVec 3) : x &&& 7#3 = x := BitVec.and_allOnes

theorem and_ones4 (x : BitVec 4) : x &&& 15#4 = x := BitVec.and_allOnes

theorem and_ones7 (x : BitVec 7) : x &&& 127#7 = x := BitVec.and_allOnes

theorem extWord_fixed (c : Cond) (op : BitVec 3) (rn rd : RegNum) (rot : BitVec 2) (rm : RegNum) :
    extWord c op rn rd rot rm &&& 0x0FF003F0#32 =
      0#4 ++ 0b01101#5 ++ op ++ 0#4 ++ 0#4 ++ 0#2 ++ 0b000111#6 ++ 0#4 := by
  unfold extWord
  rw [show 0x0FF003F0#32 = 0#4 ++ 0x1f#5 ++ 0x7#3 ++ 0#4 ++ 0#4 ++ 0#2 ++ 0x3f#6 ++ 0#4 from rfl]
  repeat rw [BitVec.and_append]
  simp [and_ones3]

theorem extWord_marked (c : Cond) (op : BitVec 3) (rn rd : RegNum) (rot : BitVec 2) (rm : RegNum) :
    extWord c op rn rd rot rm &&& 0x0FFF03F0#32 =
      0#4 ++ 0b01101#5 ++ op ++ rn ++ 0#4 ++ 0#2 ++ 0b000111#6 ++ 0#4 := by
  unfold extWord
  rw [show 0x0FFF03F0#32 = 0#4 ++ 0x1f#5 ++ 0x7#3 ++ 0xf#4 ++ 0#4 ++ 0#2 ++ 0x3f#6 ++ 0#4 from rfl]
  repeat rw [BitVec.and_append]
  simp [and_ones3, and_ones4]

theorem selWord_fixed (c : Cond) (rn rd rm : RegNum) :
    selWord c rn rd rm &&& 0x0FF00FF0#32 =
      0#4 ++ 0b01101000#8 ++ 0#4 ++ 0#4 ++ 0b11111011#8 ++ 0#4 := by
  unfold selWord
  rw [show 0x0FF00FF0#32 = 0#4 ++ 0xff#8 ++ 0#4 ++ 0#4 ++ 0xff#8 ++ 0#4 from rfl]
  repeat rw [BitVec.and_append]
  simp

theorem pasWord_fixed (c : Cond) (op1 : BitVec 3) (rn rd : RegNum) (op2 : BitVec 3) (rm : RegNum) :
    pasWord c op1 rn rd op2 rm &&& 0x0FF00FF0#32 =
      0#4 ++ 0b01100#5 ++ op1 ++ 0#4 ++ 0#4 ++ 0b1111#4 ++ op2 ++ 0b1#1 ++ 0#4 := by
  unfold pasWord
  rw [show 0x0FF00FF0#32 = 0#4 ++ 0x1f#5 ++ 0x7#3 ++ 0#4 ++ 0#4 ++ 0xf#4 ++ 0x7#3 ++ 0x1#1 ++ 0#4 from rfl]
  repeat rw [BitVec.and_append]
  simp [and_ones3]

theorem mulWord_fixed (c : Cond) (op1 : BitVec 3) (b19 b15 rs : RegNum) (op2 : BitVec 2) (xr : Bool) (rm : RegNum) :
    mulWord c op1 b19 b15 rs op2 xr rm &&& 0x0FF000D0#32 =
      0#4 ++ 0b01110#5 ++ op1 ++ 0#4 ++ 0#4 ++ 0#4 ++ op2 ++ 0#1 ++ 0b1#1 ++ 0#4 := by
  unfold mulWord
  rw [show 0x0FF000D0#32 = 0#4 ++ 0x1f#5 ++ 0x7#3 ++ 0#4 ++ 0#4 ++ 0#4 ++ 0x3#2 ++ 0#1 ++ 0x1#1 ++ 0#4 from rfl]
  repeat rw [BitVec.and_append]
  simp [and_ones2, and_ones3]

theorem mulWord_marked (c : Cond) (op1 : BitVec 3) (b19 b15 rs : RegNum) (op2 : BitVec 2) (xr : Bool) (rm : RegNum) :
    mulWord c op1 b19 b15 rs op2 xr rm &&& 0x0FF0F0D0#32 =
      0#4 ++ 0b01110#5 ++ op1 ++ 0#4 ++ b15 ++ 0#4 ++ op2 ++ 0#1 ++ 0b1#1 ++ 0#4 := by
  unfold mulWord
  rw [show 0x0FF0F0D0#32 = 0#4 ++ 0x1f#5 ++ 0x7#3 ++ 0#4 ++ 0xf#4 ++ 0#4 ++ 0x3#2 ++ 0#1 ++ 0x1#1 ++ 0#4 from rfl]
  repeat rw [BitVec.and_append]
  simp [and_ones2, and_ones3, and_ones4]

theorem satWord_fixed (c : Cond) (op : BitVec 7) (satImm : BitVec 5) (rd : RegNum) (shiftImm : BitVec 5) (sh : ShiftType) (rm : RegNum) :
    satWord c op satImm rd shiftImm sh rm &&& 0x0FE00030#32 =
      0#4 ++ op ++ 0#5 ++ 0#4 ++ 0#5 ++ 0#1 ++ 0b01#2 ++ 0#4 := by
  unfold satWord
  rw [show 0x0FE00030#32 = 0#4 ++ 0x7f#7 ++ 0#5 ++ 0#4 ++ 0#5 ++ 0#1 ++ 0x3#2 ++ 0#4 from rfl]
  repeat rw [BitVec.and_append]
  simp [and_ones7]

theorem sat16Word_fixed (c : Cond) (op : BitVec 7) (satImm : BitVec 4) (rd rm : RegNum) :
    sat16Word c op satImm rd rm &&& 0x0FF00FF0#32 =
      0#4 ++ op ++ 0b0#1 ++ 0#4 ++ 0#4 ++ 0b11110011#8 ++ 0#4 := by
  unfold sat16Word
  rw [show 0x0FF00FF0#32 = 0#4 ++ 0x7f#7 ++ 0x1#1 ++ 0#4 ++ 0#4 ++ 0xff#8 ++ 0#4 from rfl]
  repeat rw [BitVec.and_append]
  simp [and_ones7]

theorem usadWord_fixed (c : Cond) (rd b15 rs rm : RegNum) :
    usadWord c rd b15 rs rm &&& 0x0FF000F0#32 =
      0#4 ++ 0b01111000#8 ++ 0#4 ++ 0#4 ++ 0#4 ++ 0b0001#4 ++ 0#4 := by
  unfold usadWord
  rw [show 0x0FF000F0#32 = 0#4 ++ 0xff#8 ++ 0#4 ++ 0#4 ++ 0#4 ++ 0xf#4 ++ 0#4 from rfl]
  repeat rw [BitVec.and_append]
  simp

theorem usadWord_marked (c : Cond) (rd b15 rs rm : RegNum) :
    usadWord c rd b15 rs rm &&& 0x0FF0F0F0#32 =
      0#4 ++ 0b01111000#8 ++ 0#4 ++ b15 ++ 0#4 ++ 0b0001#4 ++ 0#4 := by
  unfold usadWord
  rw [show 0x0FF0F0F0#32 = 0#4 ++ 0xff#8 ++ 0#4 ++ 0xf#4 ++ 0#4 ++ 0xf#4 ++ 0#4 from rfl]
  repeat rw [BitVec.and_append]
  simp [and_ones4]

theorem pkhWord_fixed (c : Cond) (rn rd : RegNum) (shiftImm : BitVec 5) (op : BitVec 3) (rm : RegNum) :
    pkhWord c rn rd shiftImm op rm &&& 0x0FF00070#32 =
      0#4 ++ 0b01101000#8 ++ 0#4 ++ 0#4 ++ 0#5 ++ op ++ 0#4 := by
  unfold pkhWord
  rw [show 0x0FF00070#32 = 0#4 ++ 0xff#8 ++ 0#4 ++ 0#4 ++ 0#5 ++ 0x7#3 ++ 0#4 from rfl]
  repeat rw [BitVec.and_append]
  simp [and_ones3]

theorem revWord_fixed (c : Cond) (opA : BitVec 1) (rd : RegNum) (opB : BitVec 1) (rm : RegNum) :
    revWord c opA rd opB rm &&& 0x0FFF0FF0#32 =
      0#4 ++ 0b01101#5 ++ opA ++ 0b111111#6 ++ 0#4 ++ 0b1111#4 ++ opB ++ 0b011#3 ++ 0#4 := by
  unfold revWord
  rw [show 0x0FFF0FF0#32 = 0#4 ++ 0x1f#5 ++ 0x1#1 ++ 0x3f#6 ++ 0#4 ++ 0xf#4 ++ 0x1#1 ++ 0x7#3 ++ 0#4 from rfl]
  repeat rw [BitVec.and_append]
  simp [and_ones1]

/-! ### One lemma per instruction -/

/-- A word whose fixed bits are a row's matches a row without a marker. -/
theorem matchesWord_of_fixed {m : Mnemonic} {value mask w : Word} (h : w &&& mask = value) :
    (OpRow.mk m value mask none).matchesWord w = true := by
  simp [OpRow.matchesWord, h]

/-- A word whose fixed bits are a row's and whose marker field is not 15 matches the row. -/
theorem matchesWord_of_marker {m : Mnemonic} {value mask w : Word} {lo : Nat} (h : w &&& mask = value)
    (hm : nibbleAt w lo ≠ 15) : (OpRow.mk m value mask (some lo)).matchesWord w = true := by
  simpa [OpRow.matchesWord, h] using hm

/-- The word of an instruction holds its condition in bits 31-28 and, where no register field is 15, matches a row of the
opcode table with its mnemonic (R50, R55, R56). -/
def RowMatch.Statement (i : Instr) : Prop :=
  nibbleAt (encode i) 28 = i.cond.bits ∧
    (i.noR15 = true → ∃ r ∈ opcodeTable, r.mnemonic = i.mnemonic ∧ r.matchesWord (encode i) = true)

theorem RowMatch.sxtab16 (c : Cond) (rd rn rm : RegNum) (rot : BitVec 2) :
    RowMatch.Statement (.sxtab16 c rd rn rm rot) :=
  ⟨extWord_cond .., fun h => ⟨⟨.sxtab16, 0x06800070, 0x0FF003F0, some 16⟩, by simp [opcodeTable, extendRows], rfl,
    matchesWord_of_marker (extWord_fixed ..) fun e => by
      rw [encode, extWord_marker] at e; simp [Instr.noR15, Instr.registers, e] at h⟩⟩

theorem RowMatch.sxtab (c : Cond) (rd rn rm : RegNum) (rot : BitVec 2) :
    RowMatch.Statement (.sxtab c rd rn rm rot) :=
  ⟨extWord_cond .., fun h => ⟨⟨.sxtab, 0x06A00070, 0x0FF003F0, some 16⟩, by simp [opcodeTable, extendRows], rfl,
    matchesWord_of_marker (extWord_fixed ..) fun e => by
      rw [encode, extWord_marker] at e; simp [Instr.noR15, Instr.registers, e] at h⟩⟩

theorem RowMatch.sxtah (c : Cond) (rd rn rm : RegNum) (rot : BitVec 2) :
    RowMatch.Statement (.sxtah c rd rn rm rot) :=
  ⟨extWord_cond .., fun h => ⟨⟨.sxtah, 0x06B00070, 0x0FF003F0, some 16⟩, by simp [opcodeTable, extendRows], rfl,
    matchesWord_of_marker (extWord_fixed ..) fun e => by
      rw [encode, extWord_marker] at e; simp [Instr.noR15, Instr.registers, e] at h⟩⟩

theorem RowMatch.uxtab16 (c : Cond) (rd rn rm : RegNum) (rot : BitVec 2) :
    RowMatch.Statement (.uxtab16 c rd rn rm rot) :=
  ⟨extWord_cond .., fun h => ⟨⟨.uxtab16, 0x06C00070, 0x0FF003F0, some 16⟩, by simp [opcodeTable, extendRows], rfl,
    matchesWord_of_marker (extWord_fixed ..) fun e => by
      rw [encode, extWord_marker] at e; simp [Instr.noR15, Instr.registers, e] at h⟩⟩

theorem RowMatch.uxtab (c : Cond) (rd rn rm : RegNum) (rot : BitVec 2) :
    RowMatch.Statement (.uxtab c rd rn rm rot) :=
  ⟨extWord_cond .., fun h => ⟨⟨.uxtab, 0x06E00070, 0x0FF003F0, some 16⟩, by simp [opcodeTable, extendRows], rfl,
    matchesWord_of_marker (extWord_fixed ..) fun e => by
      rw [encode, extWord_marker] at e; simp [Instr.noR15, Instr.registers, e] at h⟩⟩

theorem RowMatch.uxtah (c : Cond) (rd rn rm : RegNum) (rot : BitVec 2) :
    RowMatch.Statement (.uxtah c rd rn rm rot) :=
  ⟨extWord_cond .., fun h => ⟨⟨.uxtah, 0x06F00070, 0x0FF003F0, some 16⟩, by simp [opcodeTable, extendRows], rfl,
    matchesWord_of_marker (extWord_fixed ..) fun e => by
      rw [encode, extWord_marker] at e; simp [Instr.noR15, Instr.registers, e] at h⟩⟩

theorem RowMatch.sxtb16 (c : Cond) (rd rm : RegNum) (rot : BitVec 2) :
    RowMatch.Statement (.sxtb16 c rd rm rot) :=
  ⟨extWord_cond .., fun _ => ⟨⟨.sxtb16, 0x068F0070, 0x0FFF03F0, none⟩, by simp [opcodeTable, extendRows], rfl,
    matchesWord_of_fixed (extWord_marked ..)⟩⟩

theorem RowMatch.sxtb (c : Cond) (rd rm : RegNum) (rot : BitVec 2) :
    RowMatch.Statement (.sxtb c rd rm rot) :=
  ⟨extWord_cond .., fun _ => ⟨⟨.sxtb, 0x06AF0070, 0x0FFF03F0, none⟩, by simp [opcodeTable, extendRows], rfl,
    matchesWord_of_fixed (extWord_marked ..)⟩⟩

theorem RowMatch.sxth (c : Cond) (rd rm : RegNum) (rot : BitVec 2) :
    RowMatch.Statement (.sxth c rd rm rot) :=
  ⟨extWord_cond .., fun _ => ⟨⟨.sxth, 0x06BF0070, 0x0FFF03F0, none⟩, by simp [opcodeTable, extendRows], rfl,
    matchesWord_of_fixed (extWord_marked ..)⟩⟩

theorem RowMatch.uxtb16 (c : Cond) (rd rm : RegNum) (rot : BitVec 2) :
    RowMatch.Statement (.uxtb16 c rd rm rot) :=
  ⟨extWord_cond .., fun _ => ⟨⟨.uxtb16, 0x06CF0070, 0x0FFF03F0, none⟩, by simp [opcodeTable, extendRows], rfl,
    matchesWord_of_fixed (extWord_marked ..)⟩⟩

theorem RowMatch.uxtb (c : Cond) (rd rm : RegNum) (rot : BitVec 2) :
    RowMatch.Statement (.uxtb c rd rm rot) :=
  ⟨extWord_cond .., fun _ => ⟨⟨.uxtb, 0x06EF0070, 0x0FFF03F0, none⟩, by simp [opcodeTable, extendRows], rfl,
    matchesWord_of_fixed (extWord_marked ..)⟩⟩

theorem RowMatch.uxth (c : Cond) (rd rm : RegNum) (rot : BitVec 2) :
    RowMatch.Statement (.uxth c rd rm rot) :=
  ⟨extWord_cond .., fun _ => ⟨⟨.uxth, 0x06FF0070, 0x0FFF03F0, none⟩, by simp [opcodeTable, extendRows], rfl,
    matchesWord_of_fixed (extWord_marked ..)⟩⟩

theorem RowMatch.sel (c : Cond) (rd rn rm : RegNum) :
    RowMatch.Statement (.sel c rd rn rm) :=
  ⟨selWord_cond .., fun _ => ⟨⟨.sel, 0x06800FB0, 0x0FF00FF0, none⟩, by simp [opcodeTable, selectRows], rfl,
    matchesWord_of_fixed (selWord_fixed ..)⟩⟩

theorem RowMatch.sadd16 (c : Cond) (rd rn rm : RegNum) :
    RowMatch.Statement (.sadd16 c rd rn rm) :=
  ⟨pasWord_cond .., fun _ => ⟨⟨.sadd16, 0x06100F10, 0x0FF00FF0, none⟩, by simp [opcodeTable, parallelRows], rfl,
    matchesWord_of_fixed (pasWord_fixed ..)⟩⟩

theorem RowMatch.saddsubx (c : Cond) (rd rn rm : RegNum) :
    RowMatch.Statement (.saddsubx c rd rn rm) :=
  ⟨pasWord_cond .., fun _ => ⟨⟨.saddsubx, 0x06100F30, 0x0FF00FF0, none⟩, by simp [opcodeTable, parallelRows], rfl,
    matchesWord_of_fixed (pasWord_fixed ..)⟩⟩

theorem RowMatch.ssubaddx (c : Cond) (rd rn rm : RegNum) :
    RowMatch.Statement (.ssubaddx c rd rn rm) :=
  ⟨pasWord_cond .., fun _ => ⟨⟨.ssubaddx, 0x06100F50, 0x0FF00FF0, none⟩, by simp [opcodeTable, parallelRows], rfl,
    matchesWord_of_fixed (pasWord_fixed ..)⟩⟩

theorem RowMatch.ssub16 (c : Cond) (rd rn rm : RegNum) :
    RowMatch.Statement (.ssub16 c rd rn rm) :=
  ⟨pasWord_cond .., fun _ => ⟨⟨.ssub16, 0x06100F70, 0x0FF00FF0, none⟩, by simp [opcodeTable, parallelRows], rfl,
    matchesWord_of_fixed (pasWord_fixed ..)⟩⟩

theorem RowMatch.sadd8 (c : Cond) (rd rn rm : RegNum) :
    RowMatch.Statement (.sadd8 c rd rn rm) :=
  ⟨pasWord_cond .., fun _ => ⟨⟨.sadd8, 0x06100F90, 0x0FF00FF0, none⟩, by simp [opcodeTable, parallelRows], rfl,
    matchesWord_of_fixed (pasWord_fixed ..)⟩⟩

theorem RowMatch.ssub8 (c : Cond) (rd rn rm : RegNum) :
    RowMatch.Statement (.ssub8 c rd rn rm) :=
  ⟨pasWord_cond .., fun _ => ⟨⟨.ssub8, 0x06100FF0, 0x0FF00FF0, none⟩, by simp [opcodeTable, parallelRows], rfl,
    matchesWord_of_fixed (pasWord_fixed ..)⟩⟩

theorem RowMatch.qadd16 (c : Cond) (rd rn rm : RegNum) :
    RowMatch.Statement (.qadd16 c rd rn rm) :=
  ⟨pasWord_cond .., fun _ => ⟨⟨.qadd16, 0x06200F10, 0x0FF00FF0, none⟩, by simp [opcodeTable, parallelRows], rfl,
    matchesWord_of_fixed (pasWord_fixed ..)⟩⟩

theorem RowMatch.qaddsubx (c : Cond) (rd rn rm : RegNum) :
    RowMatch.Statement (.qaddsubx c rd rn rm) :=
  ⟨pasWord_cond .., fun _ => ⟨⟨.qaddsubx, 0x06200F30, 0x0FF00FF0, none⟩, by simp [opcodeTable, parallelRows], rfl,
    matchesWord_of_fixed (pasWord_fixed ..)⟩⟩

theorem RowMatch.qsubaddx (c : Cond) (rd rn rm : RegNum) :
    RowMatch.Statement (.qsubaddx c rd rn rm) :=
  ⟨pasWord_cond .., fun _ => ⟨⟨.qsubaddx, 0x06200F50, 0x0FF00FF0, none⟩, by simp [opcodeTable, parallelRows], rfl,
    matchesWord_of_fixed (pasWord_fixed ..)⟩⟩

theorem RowMatch.qsub16 (c : Cond) (rd rn rm : RegNum) :
    RowMatch.Statement (.qsub16 c rd rn rm) :=
  ⟨pasWord_cond .., fun _ => ⟨⟨.qsub16, 0x06200F70, 0x0FF00FF0, none⟩, by simp [opcodeTable, parallelRows], rfl,
    matchesWord_of_fixed (pasWord_fixed ..)⟩⟩

theorem RowMatch.qadd8 (c : Cond) (rd rn rm : RegNum) :
    RowMatch.Statement (.qadd8 c rd rn rm) :=
  ⟨pasWord_cond .., fun _ => ⟨⟨.qadd8, 0x06200F90, 0x0FF00FF0, none⟩, by simp [opcodeTable, parallelRows], rfl,
    matchesWord_of_fixed (pasWord_fixed ..)⟩⟩

theorem RowMatch.qsub8 (c : Cond) (rd rn rm : RegNum) :
    RowMatch.Statement (.qsub8 c rd rn rm) :=
  ⟨pasWord_cond .., fun _ => ⟨⟨.qsub8, 0x06200FF0, 0x0FF00FF0, none⟩, by simp [opcodeTable, parallelRows], rfl,
    matchesWord_of_fixed (pasWord_fixed ..)⟩⟩

theorem RowMatch.shadd16 (c : Cond) (rd rn rm : RegNum) :
    RowMatch.Statement (.shadd16 c rd rn rm) :=
  ⟨pasWord_cond .., fun _ => ⟨⟨.shadd16, 0x06300F10, 0x0FF00FF0, none⟩, by simp [opcodeTable, parallelRows], rfl,
    matchesWord_of_fixed (pasWord_fixed ..)⟩⟩

theorem RowMatch.shaddsubx (c : Cond) (rd rn rm : RegNum) :
    RowMatch.Statement (.shaddsubx c rd rn rm) :=
  ⟨pasWord_cond .., fun _ => ⟨⟨.shaddsubx, 0x06300F30, 0x0FF00FF0, none⟩, by simp [opcodeTable, parallelRows], rfl,
    matchesWord_of_fixed (pasWord_fixed ..)⟩⟩

theorem RowMatch.shsubaddx (c : Cond) (rd rn rm : RegNum) :
    RowMatch.Statement (.shsubaddx c rd rn rm) :=
  ⟨pasWord_cond .., fun _ => ⟨⟨.shsubaddx, 0x06300F50, 0x0FF00FF0, none⟩, by simp [opcodeTable, parallelRows], rfl,
    matchesWord_of_fixed (pasWord_fixed ..)⟩⟩

theorem RowMatch.shsub16 (c : Cond) (rd rn rm : RegNum) :
    RowMatch.Statement (.shsub16 c rd rn rm) :=
  ⟨pasWord_cond .., fun _ => ⟨⟨.shsub16, 0x06300F70, 0x0FF00FF0, none⟩, by simp [opcodeTable, parallelRows], rfl,
    matchesWord_of_fixed (pasWord_fixed ..)⟩⟩

theorem RowMatch.shadd8 (c : Cond) (rd rn rm : RegNum) :
    RowMatch.Statement (.shadd8 c rd rn rm) :=
  ⟨pasWord_cond .., fun _ => ⟨⟨.shadd8, 0x06300F90, 0x0FF00FF0, none⟩, by simp [opcodeTable, parallelRows], rfl,
    matchesWord_of_fixed (pasWord_fixed ..)⟩⟩

theorem RowMatch.shsub8 (c : Cond) (rd rn rm : RegNum) :
    RowMatch.Statement (.shsub8 c rd rn rm) :=
  ⟨pasWord_cond .., fun _ => ⟨⟨.shsub8, 0x06300FF0, 0x0FF00FF0, none⟩, by simp [opcodeTable, parallelRows], rfl,
    matchesWord_of_fixed (pasWord_fixed ..)⟩⟩

theorem RowMatch.uadd16 (c : Cond) (rd rn rm : RegNum) :
    RowMatch.Statement (.uadd16 c rd rn rm) :=
  ⟨pasWord_cond .., fun _ => ⟨⟨.uadd16, 0x06500F10, 0x0FF00FF0, none⟩, by simp [opcodeTable, parallelRows], rfl,
    matchesWord_of_fixed (pasWord_fixed ..)⟩⟩

theorem RowMatch.uaddsubx (c : Cond) (rd rn rm : RegNum) :
    RowMatch.Statement (.uaddsubx c rd rn rm) :=
  ⟨pasWord_cond .., fun _ => ⟨⟨.uaddsubx, 0x06500F30, 0x0FF00FF0, none⟩, by simp [opcodeTable, parallelRows], rfl,
    matchesWord_of_fixed (pasWord_fixed ..)⟩⟩

theorem RowMatch.usubaddx (c : Cond) (rd rn rm : RegNum) :
    RowMatch.Statement (.usubaddx c rd rn rm) :=
  ⟨pasWord_cond .., fun _ => ⟨⟨.usubaddx, 0x06500F50, 0x0FF00FF0, none⟩, by simp [opcodeTable, parallelRows], rfl,
    matchesWord_of_fixed (pasWord_fixed ..)⟩⟩

theorem RowMatch.usub16 (c : Cond) (rd rn rm : RegNum) :
    RowMatch.Statement (.usub16 c rd rn rm) :=
  ⟨pasWord_cond .., fun _ => ⟨⟨.usub16, 0x06500F70, 0x0FF00FF0, none⟩, by simp [opcodeTable, parallelRows], rfl,
    matchesWord_of_fixed (pasWord_fixed ..)⟩⟩

theorem RowMatch.uadd8 (c : Cond) (rd rn rm : RegNum) :
    RowMatch.Statement (.uadd8 c rd rn rm) :=
  ⟨pasWord_cond .., fun _ => ⟨⟨.uadd8, 0x06500F90, 0x0FF00FF0, none⟩, by simp [opcodeTable, parallelRows], rfl,
    matchesWord_of_fixed (pasWord_fixed ..)⟩⟩

theorem RowMatch.usub8 (c : Cond) (rd rn rm : RegNum) :
    RowMatch.Statement (.usub8 c rd rn rm) :=
  ⟨pasWord_cond .., fun _ => ⟨⟨.usub8, 0x06500FF0, 0x0FF00FF0, none⟩, by simp [opcodeTable, parallelRows], rfl,
    matchesWord_of_fixed (pasWord_fixed ..)⟩⟩

theorem RowMatch.uqadd16 (c : Cond) (rd rn rm : RegNum) :
    RowMatch.Statement (.uqadd16 c rd rn rm) :=
  ⟨pasWord_cond .., fun _ => ⟨⟨.uqadd16, 0x06600F10, 0x0FF00FF0, none⟩, by simp [opcodeTable, parallelRows], rfl,
    matchesWord_of_fixed (pasWord_fixed ..)⟩⟩

theorem RowMatch.uqaddsubx (c : Cond) (rd rn rm : RegNum) :
    RowMatch.Statement (.uqaddsubx c rd rn rm) :=
  ⟨pasWord_cond .., fun _ => ⟨⟨.uqaddsubx, 0x06600F30, 0x0FF00FF0, none⟩, by simp [opcodeTable, parallelRows], rfl,
    matchesWord_of_fixed (pasWord_fixed ..)⟩⟩

theorem RowMatch.uqsubaddx (c : Cond) (rd rn rm : RegNum) :
    RowMatch.Statement (.uqsubaddx c rd rn rm) :=
  ⟨pasWord_cond .., fun _ => ⟨⟨.uqsubaddx, 0x06600F50, 0x0FF00FF0, none⟩, by simp [opcodeTable, parallelRows], rfl,
    matchesWord_of_fixed (pasWord_fixed ..)⟩⟩

theorem RowMatch.uqsub16 (c : Cond) (rd rn rm : RegNum) :
    RowMatch.Statement (.uqsub16 c rd rn rm) :=
  ⟨pasWord_cond .., fun _ => ⟨⟨.uqsub16, 0x06600F70, 0x0FF00FF0, none⟩, by simp [opcodeTable, parallelRows], rfl,
    matchesWord_of_fixed (pasWord_fixed ..)⟩⟩

theorem RowMatch.uqadd8 (c : Cond) (rd rn rm : RegNum) :
    RowMatch.Statement (.uqadd8 c rd rn rm) :=
  ⟨pasWord_cond .., fun _ => ⟨⟨.uqadd8, 0x06600F90, 0x0FF00FF0, none⟩, by simp [opcodeTable, parallelRows], rfl,
    matchesWord_of_fixed (pasWord_fixed ..)⟩⟩

theorem RowMatch.uqsub8 (c : Cond) (rd rn rm : RegNum) :
    RowMatch.Statement (.uqsub8 c rd rn rm) :=
  ⟨pasWord_cond .., fun _ => ⟨⟨.uqsub8, 0x06600FF0, 0x0FF00FF0, none⟩, by simp [opcodeTable, parallelRows], rfl,
    matchesWord_of_fixed (pasWord_fixed ..)⟩⟩

theorem RowMatch.uhadd16 (c : Cond) (rd rn rm : RegNum) :
    RowMatch.Statement (.uhadd16 c rd rn rm) :=
  ⟨pasWord_cond .., fun _ => ⟨⟨.uhadd16, 0x06700F10, 0x0FF00FF0, none⟩, by simp [opcodeTable, parallelRows], rfl,
    matchesWord_of_fixed (pasWord_fixed ..)⟩⟩

theorem RowMatch.uhaddsubx (c : Cond) (rd rn rm : RegNum) :
    RowMatch.Statement (.uhaddsubx c rd rn rm) :=
  ⟨pasWord_cond .., fun _ => ⟨⟨.uhaddsubx, 0x06700F30, 0x0FF00FF0, none⟩, by simp [opcodeTable, parallelRows], rfl,
    matchesWord_of_fixed (pasWord_fixed ..)⟩⟩

theorem RowMatch.uhsubaddx (c : Cond) (rd rn rm : RegNum) :
    RowMatch.Statement (.uhsubaddx c rd rn rm) :=
  ⟨pasWord_cond .., fun _ => ⟨⟨.uhsubaddx, 0x06700F50, 0x0FF00FF0, none⟩, by simp [opcodeTable, parallelRows], rfl,
    matchesWord_of_fixed (pasWord_fixed ..)⟩⟩

theorem RowMatch.uhsub16 (c : Cond) (rd rn rm : RegNum) :
    RowMatch.Statement (.uhsub16 c rd rn rm) :=
  ⟨pasWord_cond .., fun _ => ⟨⟨.uhsub16, 0x06700F70, 0x0FF00FF0, none⟩, by simp [opcodeTable, parallelRows], rfl,
    matchesWord_of_fixed (pasWord_fixed ..)⟩⟩

theorem RowMatch.uhadd8 (c : Cond) (rd rn rm : RegNum) :
    RowMatch.Statement (.uhadd8 c rd rn rm) :=
  ⟨pasWord_cond .., fun _ => ⟨⟨.uhadd8, 0x06700F90, 0x0FF00FF0, none⟩, by simp [opcodeTable, parallelRows], rfl,
    matchesWord_of_fixed (pasWord_fixed ..)⟩⟩

theorem RowMatch.uhsub8 (c : Cond) (rd rn rm : RegNum) :
    RowMatch.Statement (.uhsub8 c rd rn rm) :=
  ⟨pasWord_cond .., fun _ => ⟨⟨.uhsub8, 0x06700FF0, 0x0FF00FF0, none⟩, by simp [opcodeTable, parallelRows], rfl,
    matchesWord_of_fixed (pasWord_fixed ..)⟩⟩

theorem RowMatch.smuad (c : Cond) (x : Bool) (rd rm rs : RegNum) :
    RowMatch.Statement (.smuad c x rd rm rs) :=
  ⟨mulWord_cond .., fun _ => ⟨⟨.smuad, 0x0700F010, 0x0FF0F0D0, none⟩, by simp [opcodeTable, multiplyRows], rfl,
    matchesWord_of_fixed (mulWord_marked ..)⟩⟩

theorem RowMatch.smlad (c : Cond) (x : Bool) (rd rm rs rn : RegNum) :
    RowMatch.Statement (.smlad c x rd rm rs rn) :=
  ⟨mulWord_cond .., fun h => ⟨⟨.smlad, 0x07000010, 0x0FF000D0, some 12⟩, by simp [opcodeTable, multiplyRows], rfl,
    matchesWord_of_marker (mulWord_fixed ..) fun e => by
      rw [encode, mulWord_marker] at e; simp [Instr.noR15, Instr.registers, e] at h⟩⟩

theorem RowMatch.smusd (c : Cond) (x : Bool) (rd rm rs : RegNum) :
    RowMatch.Statement (.smusd c x rd rm rs) :=
  ⟨mulWord_cond .., fun _ => ⟨⟨.smusd, 0x0700F050, 0x0FF0F0D0, none⟩, by simp [opcodeTable, multiplyRows], rfl,
    matchesWord_of_fixed (mulWord_marked ..)⟩⟩

theorem RowMatch.smlsd (c : Cond) (x : Bool) (rd rm rs rn : RegNum) :
    RowMatch.Statement (.smlsd c x rd rm rs rn) :=
  ⟨mulWord_cond .., fun h => ⟨⟨.smlsd, 0x07000050, 0x0FF000D0, some 12⟩, by simp [opcodeTable, multiplyRows], rfl,
    matchesWord_of_marker (mulWord_fixed ..) fun e => by
      rw [encode, mulWord_marker] at e; simp [Instr.noR15, Instr.registers, e] at h⟩⟩

theorem RowMatch.smlald (c : Cond) (x : Bool) (rdLo rdHi rm rs : RegNum) :
    RowMatch.Statement (.smlald c x rdLo rdHi rm rs) :=
  ⟨mulWord_cond .., fun _ => ⟨⟨.smlald, 0x07400010, 0x0FF000D0, none⟩, by simp [opcodeTable, multiplyRows], rfl,
    matchesWord_of_fixed (mulWord_fixed ..)⟩⟩

theorem RowMatch.smlsld (c : Cond) (x : Bool) (rdLo rdHi rm rs : RegNum) :
    RowMatch.Statement (.smlsld c x rdLo rdHi rm rs) :=
  ⟨mulWord_cond .., fun _ => ⟨⟨.smlsld, 0x07400050, 0x0FF000D0, none⟩, by simp [opcodeTable, multiplyRows], rfl,
    matchesWord_of_fixed (mulWord_fixed ..)⟩⟩

theorem RowMatch.smmul (c : Cond) (r : Bool) (rd rm rs : RegNum) :
    RowMatch.Statement (.smmul c r rd rm rs) :=
  ⟨mulWord_cond .., fun _ => ⟨⟨.smmul, 0x0750F010, 0x0FF0F0D0, none⟩, by simp [opcodeTable, multiplyRows], rfl,
    matchesWord_of_fixed (mulWord_marked ..)⟩⟩

theorem RowMatch.smmla (c : Cond) (r : Bool) (rd rm rs rn : RegNum) :
    RowMatch.Statement (.smmla c r rd rm rs rn) :=
  ⟨mulWord_cond .., fun h => ⟨⟨.smmla, 0x07500010, 0x0FF000D0, some 12⟩, by simp [opcodeTable, multiplyRows], rfl,
    matchesWord_of_marker (mulWord_fixed ..) fun e => by
      rw [encode, mulWord_marker] at e; simp [Instr.noR15, Instr.registers, e] at h⟩⟩

theorem RowMatch.smmls (c : Cond) (r : Bool) (rd rm rs rn : RegNum) :
    RowMatch.Statement (.smmls c r rd rm rs rn) :=
  ⟨mulWord_cond .., fun _ => ⟨⟨.smmls, 0x075000D0, 0x0FF000D0, none⟩, by simp [opcodeTable, multiplyRows], rfl,
    matchesWord_of_fixed (mulWord_fixed ..)⟩⟩

theorem RowMatch.ssat (c : Cond) (rd : RegNum) (satImm : BitVec 5) (rm : RegNum) (sh : ShiftType) (shiftImm : BitVec 5) :
    RowMatch.Statement (.ssat c rd satImm rm sh shiftImm) :=
  ⟨satWord_cond .., fun _ => ⟨⟨.ssat, 0x06A00010, 0x0FE00030, none⟩, by simp [opcodeTable, saturateRows], rfl,
    matchesWord_of_fixed (satWord_fixed ..)⟩⟩

theorem RowMatch.usat (c : Cond) (rd : RegNum) (satImm : BitVec 5) (rm : RegNum) (sh : ShiftType) (shiftImm : BitVec 5) :
    RowMatch.Statement (.usat c rd satImm rm sh shiftImm) :=
  ⟨satWord_cond .., fun _ => ⟨⟨.usat, 0x06E00010, 0x0FE00030, none⟩, by simp [opcodeTable, saturateRows], rfl,
    matchesWord_of_fixed (satWord_fixed ..)⟩⟩

theorem RowMatch.ssat16 (c : Cond) (rd : RegNum) (satImm : BitVec 4) (rm : RegNum) :
    RowMatch.Statement (.ssat16 c rd satImm rm) :=
  ⟨sat16Word_cond .., fun _ => ⟨⟨.ssat16, 0x06A00F30, 0x0FF00FF0, none⟩, by simp [opcodeTable, saturate16Rows], rfl,
    matchesWord_of_fixed (sat16Word_fixed ..)⟩⟩

theorem RowMatch.usat16 (c : Cond) (rd : RegNum) (satImm : BitVec 4) (rm : RegNum) :
    RowMatch.Statement (.usat16 c rd satImm rm) :=
  ⟨sat16Word_cond .., fun _ => ⟨⟨.usat16, 0x06E00F30, 0x0FF00FF0, none⟩, by simp [opcodeTable, saturate16Rows], rfl,
    matchesWord_of_fixed (sat16Word_fixed ..)⟩⟩

theorem RowMatch.usad8 (c : Cond) (rd rm rs : RegNum) :
    RowMatch.Statement (.usad8 c rd rm rs) :=
  ⟨usadWord_cond .., fun _ => ⟨⟨.usad8, 0x0780F010, 0x0FF0F0F0, none⟩, by simp [opcodeTable, absDiffRows], rfl,
    matchesWord_of_fixed (usadWord_marked ..)⟩⟩

theorem RowMatch.usada8 (c : Cond) (rd rm rs rn : RegNum) :
    RowMatch.Statement (.usada8 c rd rm rs rn) :=
  ⟨usadWord_cond .., fun h => ⟨⟨.usada8, 0x07800010, 0x0FF000F0, some 12⟩, by simp [opcodeTable, absDiffRows], rfl,
    matchesWord_of_marker (usadWord_fixed ..) fun e => by
      rw [encode, usadWord_marker] at e; simp [Instr.noR15, Instr.registers, e] at h⟩⟩

theorem RowMatch.pkhbt (c : Cond) (rd rn rm : RegNum) (shiftImm : BitVec 5) :
    RowMatch.Statement (.pkhbt c rd rn rm shiftImm) :=
  ⟨pkhWord_cond .., fun _ => ⟨⟨.pkhbt, 0x06800010, 0x0FF00070, none⟩, by simp [opcodeTable, packRows], rfl,
    matchesWord_of_fixed (pkhWord_fixed ..)⟩⟩

theorem RowMatch.pkhtb (c : Cond) (rd rn rm : RegNum) (shiftImm : BitVec 5) :
    RowMatch.Statement (.pkhtb c rd rn rm shiftImm) :=
  ⟨pkhWord_cond .., fun _ => ⟨⟨.pkhtb, 0x06800050, 0x0FF00070, none⟩, by simp [opcodeTable, packRows], rfl,
    matchesWord_of_fixed (pkhWord_fixed ..)⟩⟩

theorem RowMatch.rev (c : Cond) (rd rm : RegNum) :
    RowMatch.Statement (.rev c rd rm) :=
  ⟨revWord_cond .., fun _ => ⟨⟨.rev, 0x06BF0F30, 0x0FFF0FF0, none⟩, by simp [opcodeTable, reverseRows], rfl,
    matchesWord_of_fixed (revWord_fixed ..)⟩⟩

theorem RowMatch.rev16 (c : Cond) (rd rm : RegNum) :
    RowMatch.Statement (.rev16 c rd rm) :=
  ⟨revWord_cond .., fun _ => ⟨⟨.rev16, 0x06BF0FB0, 0x0FFF0FF0, none⟩, by simp [opcodeTable, reverseRows], rfl,
    matchesWord_of_fixed (revWord_fixed ..)⟩⟩

theorem RowMatch.revsh (c : Cond) (rd rm : RegNum) :
    RowMatch.Statement (.revsh c rd rm) :=
  ⟨revWord_cond .., fun _ => ⟨⟨.revsh, 0x06FF0FB0, 0x0FFF0FF0, none⟩, by simp [opcodeTable, reverseRows], rfl,
    matchesWord_of_fixed (revWord_fixed ..)⟩⟩

end Sys2Proof.Laws
end

