-- ==== Sys2Proof/Tests/Slice0.lean ====
section
/-! SUPPORT. Tests: ill-formed terms refused; the decoding of a written-out word per instruction, cut at its field boundaries
(R51, R56); one step on vectors of `spec/95_test_vectors.md` and `spec/96_test_vectors_families.md`; and, from
`witness_` on, concrete inputs that meet the hypotheses of the statements, at boundary values. -/

namespace Sys2Proof.Tests

open Sys2Proof Sys2Proof.Machine

-- One theorem at a time: each opens a thread otherwise, and their stacks together exceed the memory limit.
set_option Elab.async false

/-! ### Helpers -/

/-- Registers from a short list; the others hold 0. -/
def regsOf (l : List (Nat × Word)) : Vector Word 15 := l.foldl (fun v p => v.set! p.1 p.2) (Vector.replicate 15 0)

/-- Flags N Z C V as four bits, then Q and GE. -/
def flagsOf (nzcv : BitVec 4) (q : Bool) (ge : BitVec 4) : Cpsr :=
  ⟨nzcv.getLsbD 3, nzcv.getLsbD 2, nzcv.getLsbD 1, nzcv.getLsbD 0, q, ge⟩

/-- A core with three readings chosen, the rest as R6 defaults. -/
def core (q : QDualSub) (s : SmmlsForm) (u : UsatBound) : Config := ⟨6, false, q, s, u⟩

/-- The default parameters of R6. -/
def core6 : Config := Config.default

/-- A one-word program launched at 0x8000, as the vectors are. -/
def start (cfg : Config) (r : List (Nat × Word)) (f : Cpsr) (w : Word) : State :=
  State.launch cfg (regsOf r) f 0x8000 [w]

/-- What a vector lists after one step: the registers, the flags and pc. -/
def after (s : State) : Option (Vector Word 15 × Cpsr × Word) :=
  match step s with
  | .next t => some (t.regs, t.cpsr, t.pc)
  | _ => none

/-- A next state that meets a test. -/
def nextWith (r : Result) (p : State → Bool) : Bool :=
  match r with
  | .next t => p t
  | _ => false

theorem exists_next {r : Result} {p : State → Bool} (h : nextWith r p = true) : ∃ t, r = .next t ∧ p t = true := by
  cases r with
  | next t => exact ⟨t, rfl, h⟩
  | fault f => cases h
  | refused e => cases h

/-- Why a step is refused. -/
def refusal (s : State) : Option Refusal :=
  match step s with
  | .refused r => some r
  | _ => none

/-! ### Well-formedness: one ill-formed term for each check (R53, R203) -/

theorem test_wf_fifteen_in_rd : Instr.wellFormed (.sadd16 .al 15 1 2) = false := by decide

theorem test_wf_fifteen_in_rn : Instr.wellFormed (.sxtab .al 0 15 2 0) = false := by decide

theorem test_wf_fifteen_in_rm : Instr.wellFormed (.rev .al 0 15) = false := by decide

theorem test_wf_fifteen_in_rs : Instr.wellFormed (.smuad .al false 0 1 15) = false := by decide

theorem test_wf_fifteen_in_accumulator : Instr.wellFormed (.smlad .al false 0 1 2 15) = false := by decide

theorem test_wf_fifteen_in_rdlo : Instr.wellFormed (.smlald .al false 15 1 2 3) = false := by decide

theorem test_wf_fifteen_in_rdhi : Instr.wellFormed (.smlsld .al false 1 15 2 3) = false := by decide

theorem test_wf_equal_destinations : Instr.wellFormed (.smlald .al false 4 4 1 2) = false := by decide

theorem test_wf_equal_destinations_sub : Instr.wellFormed (.smlsld .al true 0 0 0 0) = false := by decide

theorem test_wf_admits : Instr.wellFormed (.smlald .al false 13 14 14 13) = true := by decide

/-! ### Decoding: the bits of each encoding, written out, and the encoder's word -/

theorem test_decode_sxtab16 : decode 0b1110_01101000_0101_0011_10_000111_1001 = .ok (.sxtab16 .al 3 5 9 2) ∧
    encode (.sxtab16 .al 3 5 9 2) = 0b1110_01101000_0101_0011_10_000111_1001 := by decide +kernel

theorem test_decode_sxtab : decode 0b0000_01101010_0101_0011_10_000111_1001 = .ok (.sxtab .eq 3 5 9 2) ∧
    encode (.sxtab .eq 3 5 9 2) = 0b0000_01101010_0101_0011_10_000111_1001 := by decide +kernel

theorem test_decode_sxtah : decode 0b1100_01101011_0101_0011_10_000111_1001 = .ok (.sxtah .gt 3 5 9 2) ∧
    encode (.sxtah .gt 3 5 9 2) = 0b1100_01101011_0101_0011_10_000111_1001 := by decide +kernel

theorem test_decode_uxtab16 : decode 0b1001_01101100_0101_0011_10_000111_1001 = .ok (.uxtab16 .ls 3 5 9 2) ∧
    encode (.uxtab16 .ls 3 5 9 2) = 0b1001_01101100_0101_0011_10_000111_1001 := by decide +kernel

theorem test_decode_uxtab : decode 0b0101_01101110_0101_0011_10_000111_1001 = .ok (.uxtab .pl 3 5 9 2) ∧
    encode (.uxtab .pl 3 5 9 2) = 0b0101_01101110_0101_0011_10_000111_1001 := by decide +kernel

theorem test_decode_uxtah : decode 0b1110_01101111_0101_0011_10_000111_1001 = .ok (.uxtah .al 3 5 9 2) ∧
    encode (.uxtah .al 3 5 9 2) = 0b1110_01101111_0101_0011_10_000111_1001 := by decide +kernel

theorem test_decode_sxtb16 : decode 0b0000_011010001111_0011_10_000111_1001 = .ok (.sxtb16 .eq 3 9 2) ∧
    encode (.sxtb16 .eq 3 9 2) = 0b0000_011010001111_0011_10_000111_1001 := by decide +kernel

theorem test_decode_sxtb : decode 0b1100_011010101111_0011_10_000111_1001 = .ok (.sxtb .gt 3 9 2) ∧
    encode (.sxtb .gt 3 9 2) = 0b1100_011010101111_0011_10_000111_1001 := by decide +kernel

theorem test_decode_sxth : decode 0b1001_011010111111_0011_10_000111_1001 = .ok (.sxth .ls 3 9 2) ∧
    encode (.sxth .ls 3 9 2) = 0b1001_011010111111_0011_10_000111_1001 := by decide +kernel

theorem test_decode_uxtb16 : decode 0b0101_011011001111_0011_10_000111_1001 = .ok (.uxtb16 .pl 3 9 2) ∧
    encode (.uxtb16 .pl 3 9 2) = 0b0101_011011001111_0011_10_000111_1001 := by decide +kernel

theorem test_decode_uxtb : decode 0b1110_011011101111_0011_10_000111_1001 = .ok (.uxtb .al 3 9 2) ∧
    encode (.uxtb .al 3 9 2) = 0b1110_011011101111_0011_10_000111_1001 := by decide +kernel

theorem test_decode_uxth : decode 0b0000_011011111111_0011_10_000111_1001 = .ok (.uxth .eq 3 9 2) ∧
    encode (.uxth .eq 3 9 2) = 0b0000_011011111111_0011_10_000111_1001 := by decide +kernel

theorem test_decode_sel : decode 0b1100_01101000_0101_0011_11111011_1001 = .ok (.sel .gt 3 5 9) ∧
    encode (.sel .gt 3 5 9) = 0b1100_01101000_0101_0011_11111011_1001 := by decide +kernel

theorem test_decode_sadd16 : decode 0b1001_01100001_0101_0011_11110001_1001 = .ok (.sadd16 .ls 3 5 9) ∧
    encode (.sadd16 .ls 3 5 9) = 0b1001_01100001_0101_0011_11110001_1001 := by decide +kernel

theorem test_decode_saddsubx : decode 0b0101_01100001_0101_0011_11110011_1001 = .ok (.saddsubx .pl 3 5 9) ∧
    encode (.saddsubx .pl 3 5 9) = 0b0101_01100001_0101_0011_11110011_1001 := by decide +kernel

theorem test_decode_ssubaddx : decode 0b1110_01100001_0101_0011_11110101_1001 = .ok (.ssubaddx .al 3 5 9) ∧
    encode (.ssubaddx .al 3 5 9) = 0b1110_01100001_0101_0011_11110101_1001 := by decide +kernel

theorem test_decode_ssub16 : decode 0b0000_01100001_0101_0011_11110111_1001 = .ok (.ssub16 .eq 3 5 9) ∧
    encode (.ssub16 .eq 3 5 9) = 0b0000_01100001_0101_0011_11110111_1001 := by decide +kernel

theorem test_decode_sadd8 : decode 0b1100_01100001_0101_0011_11111001_1001 = .ok (.sadd8 .gt 3 5 9) ∧
    encode (.sadd8 .gt 3 5 9) = 0b1100_01100001_0101_0011_11111001_1001 := by decide +kernel

theorem test_decode_ssub8 : decode 0b1001_01100001_0101_0011_11111111_1001 = .ok (.ssub8 .ls 3 5 9) ∧
    encode (.ssub8 .ls 3 5 9) = 0b1001_01100001_0101_0011_11111111_1001 := by decide +kernel

theorem test_decode_qadd16 : decode 0b0101_01100010_0101_0011_11110001_1001 = .ok (.qadd16 .pl 3 5 9) ∧
    encode (.qadd16 .pl 3 5 9) = 0b0101_01100010_0101_0011_11110001_1001 := by decide +kernel

theorem test_decode_qaddsubx : decode 0b1110_01100010_0101_0011_11110011_1001 = .ok (.qaddsubx .al 3 5 9) ∧
    encode (.qaddsubx .al 3 5 9) = 0b1110_01100010_0101_0011_11110011_1001 := by decide +kernel

theorem test_decode_qsubaddx : decode 0b0000_01100010_0101_0011_11110101_1001 = .ok (.qsubaddx .eq 3 5 9) ∧
    encode (.qsubaddx .eq 3 5 9) = 0b0000_01100010_0101_0011_11110101_1001 := by decide +kernel

theorem test_decode_qsub16 : decode 0b1100_01100010_0101_0011_11110111_1001 = .ok (.qsub16 .gt 3 5 9) ∧
    encode (.qsub16 .gt 3 5 9) = 0b1100_01100010_0101_0011_11110111_1001 := by decide +kernel

theorem test_decode_qadd8 : decode 0b1001_01100010_0101_0011_11111001_1001 = .ok (.qadd8 .ls 3 5 9) ∧
    encode (.qadd8 .ls 3 5 9) = 0b1001_01100010_0101_0011_11111001_1001 := by decide +kernel

theorem test_decode_qsub8 : decode 0b0101_01100010_0101_0011_11111111_1001 = .ok (.qsub8 .pl 3 5 9) ∧
    encode (.qsub8 .pl 3 5 9) = 0b0101_01100010_0101_0011_11111111_1001 := by decide +kernel

theorem test_decode_shadd16 : decode 0b1110_01100011_0101_0011_11110001_1001 = .ok (.shadd16 .al 3 5 9) ∧
    encode (.shadd16 .al 3 5 9) = 0b1110_01100011_0101_0011_11110001_1001 := by decide +kernel

theorem test_decode_shaddsubx : decode 0b0000_01100011_0101_0011_11110011_1001 = .ok (.shaddsubx .eq 3 5 9) ∧
    encode (.shaddsubx .eq 3 5 9) = 0b0000_01100011_0101_0011_11110011_1001 := by decide +kernel

theorem test_decode_shsubaddx : decode 0b1100_01100011_0101_0011_11110101_1001 = .ok (.shsubaddx .gt 3 5 9) ∧
    encode (.shsubaddx .gt 3 5 9) = 0b1100_01100011_0101_0011_11110101_1001 := by decide +kernel

theorem test_decode_shsub16 : decode 0b1001_01100011_0101_0011_11110111_1001 = .ok (.shsub16 .ls 3 5 9) ∧
    encode (.shsub16 .ls 3 5 9) = 0b1001_01100011_0101_0011_11110111_1001 := by decide +kernel

theorem test_decode_shadd8 : decode 0b0101_01100011_0101_0011_11111001_1001 = .ok (.shadd8 .pl 3 5 9) ∧
    encode (.shadd8 .pl 3 5 9) = 0b0101_01100011_0101_0011_11111001_1001 := by decide +kernel

theorem test_decode_shsub8 : decode 0b1110_01100011_0101_0011_11111111_1001 = .ok (.shsub8 .al 3 5 9) ∧
    encode (.shsub8 .al 3 5 9) = 0b1110_01100011_0101_0011_11111111_1001 := by decide +kernel

theorem test_decode_uadd16 : decode 0b0000_01100101_0101_0011_11110001_1001 = .ok (.uadd16 .eq 3 5 9) ∧
    encode (.uadd16 .eq 3 5 9) = 0b0000_01100101_0101_0011_11110001_1001 := by decide +kernel

theorem test_decode_uaddsubx : decode 0b1100_01100101_0101_0011_11110011_1001 = .ok (.uaddsubx .gt 3 5 9) ∧
    encode (.uaddsubx .gt 3 5 9) = 0b1100_01100101_0101_0011_11110011_1001 := by decide +kernel

theorem test_decode_usubaddx : decode 0b1001_01100101_0101_0011_11110101_1001 = .ok (.usubaddx .ls 3 5 9) ∧
    encode (.usubaddx .ls 3 5 9) = 0b1001_01100101_0101_0011_11110101_1001 := by decide +kernel

theorem test_decode_usub16 : decode 0b0101_01100101_0101_0011_11110111_1001 = .ok (.usub16 .pl 3 5 9) ∧
    encode (.usub16 .pl 3 5 9) = 0b0101_01100101_0101_0011_11110111_1001 := by decide +kernel

theorem test_decode_uadd8 : decode 0b1110_01100101_0101_0011_11111001_1001 = .ok (.uadd8 .al 3 5 9) ∧
    encode (.uadd8 .al 3 5 9) = 0b1110_01100101_0101_0011_11111001_1001 := by decide +kernel

theorem test_decode_usub8 : decode 0b0000_01100101_0101_0011_11111111_1001 = .ok (.usub8 .eq 3 5 9) ∧
    encode (.usub8 .eq 3 5 9) = 0b0000_01100101_0101_0011_11111111_1001 := by decide +kernel

theorem test_decode_uqadd16 : decode 0b1100_01100110_0101_0011_11110001_1001 = .ok (.uqadd16 .gt 3 5 9) ∧
    encode (.uqadd16 .gt 3 5 9) = 0b1100_01100110_0101_0011_11110001_1001 := by decide +kernel

theorem test_decode_uqaddsubx : decode 0b1001_01100110_0101_0011_11110011_1001 = .ok (.uqaddsubx .ls 3 5 9) ∧
    encode (.uqaddsubx .ls 3 5 9) = 0b1001_01100110_0101_0011_11110011_1001 := by decide +kernel

theorem test_decode_uqsubaddx : decode 0b0101_01100110_0101_0011_11110101_1001 = .ok (.uqsubaddx .pl 3 5 9) ∧
    encode (.uqsubaddx .pl 3 5 9) = 0b0101_01100110_0101_0011_11110101_1001 := by decide +kernel

theorem test_decode_uqsub16 : decode 0b1110_01100110_0101_0011_11110111_1001 = .ok (.uqsub16 .al 3 5 9) ∧
    encode (.uqsub16 .al 3 5 9) = 0b1110_01100110_0101_0011_11110111_1001 := by decide +kernel

theorem test_decode_uqadd8 : decode 0b0000_01100110_0101_0011_11111001_1001 = .ok (.uqadd8 .eq 3 5 9) ∧
    encode (.uqadd8 .eq 3 5 9) = 0b0000_01100110_0101_0011_11111001_1001 := by decide +kernel

theorem test_decode_uqsub8 : decode 0b1100_01100110_0101_0011_11111111_1001 = .ok (.uqsub8 .gt 3 5 9) ∧
    encode (.uqsub8 .gt 3 5 9) = 0b1100_01100110_0101_0011_11111111_1001 := by decide +kernel

theorem test_decode_uhadd16 : decode 0b1001_01100111_0101_0011_11110001_1001 = .ok (.uhadd16 .ls 3 5 9) ∧
    encode (.uhadd16 .ls 3 5 9) = 0b1001_01100111_0101_0011_11110001_1001 := by decide +kernel

theorem test_decode_uhaddsubx : decode 0b0101_01100111_0101_0011_11110011_1001 = .ok (.uhaddsubx .pl 3 5 9) ∧
    encode (.uhaddsubx .pl 3 5 9) = 0b0101_01100111_0101_0011_11110011_1001 := by decide +kernel

theorem test_decode_uhsubaddx : decode 0b1110_01100111_0101_0011_11110101_1001 = .ok (.uhsubaddx .al 3 5 9) ∧
    encode (.uhsubaddx .al 3 5 9) = 0b1110_01100111_0101_0011_11110101_1001 := by decide +kernel

theorem test_decode_uhsub16 : decode 0b0000_01100111_0101_0011_11110111_1001 = .ok (.uhsub16 .eq 3 5 9) ∧
    encode (.uhsub16 .eq 3 5 9) = 0b0000_01100111_0101_0011_11110111_1001 := by decide +kernel

theorem test_decode_uhadd8 : decode 0b1100_01100111_0101_0011_11111001_1001 = .ok (.uhadd8 .gt 3 5 9) ∧
    encode (.uhadd8 .gt 3 5 9) = 0b1100_01100111_0101_0011_11111001_1001 := by decide +kernel

theorem test_decode_uhsub8 : decode 0b1001_01100111_0101_0011_11111111_1001 = .ok (.uhsub8 .ls 3 5 9) ∧
    encode (.uhsub8 .ls 3 5 9) = 0b1001_01100111_0101_0011_11111111_1001 := by decide +kernel

theorem test_decode_smuad : decode 0b0101_01110000_0011_1111_1100_00_1_1_1001 = .ok (.smuad .pl true 3 9 12) ∧
    encode (.smuad .pl true 3 9 12) = 0b0101_01110000_0011_1111_1100_00_1_1_1001 := by decide +kernel

theorem test_decode_smlad : decode 0b1110_01110000_0011_0101_1100_00_1_1_1001 = .ok (.smlad .al true 3 9 12 5) ∧
    encode (.smlad .al true 3 9 12 5) = 0b1110_01110000_0011_0101_1100_00_1_1_1001 := by decide +kernel

theorem test_decode_smusd : decode 0b0000_01110000_0011_1111_1100_01_1_1_1001 = .ok (.smusd .eq true 3 9 12) ∧
    encode (.smusd .eq true 3 9 12) = 0b0000_01110000_0011_1111_1100_01_1_1_1001 := by decide +kernel

theorem test_decode_smlsd : decode 0b1100_01110000_0011_0101_1100_01_1_1_1001 = .ok (.smlsd .gt true 3 9 12 5) ∧
    encode (.smlsd .gt true 3 9 12 5) = 0b1100_01110000_0011_0101_1100_01_1_1_1001 := by decide +kernel

theorem test_decode_smlald : decode 0b1001_01110100_1010_0110_1100_00_1_1_1001 = .ok (.smlald .ls true 6 10 9 12) ∧
    encode (.smlald .ls true 6 10 9 12) = 0b1001_01110100_1010_0110_1100_00_1_1_1001 := by decide +kernel

theorem test_decode_smlsld : decode 0b0101_01110100_1010_0110_1100_01_1_1_1001 = .ok (.smlsld .pl true 6 10 9 12) ∧
    encode (.smlsld .pl true 6 10 9 12) = 0b0101_01110100_1010_0110_1100_01_1_1_1001 := by decide +kernel

theorem test_decode_smmul : decode 0b1110_01110101_0011_1111_1100_00_1_1_1001 = .ok (.smmul .al true 3 9 12) ∧
    encode (.smmul .al true 3 9 12) = 0b1110_01110101_0011_1111_1100_00_1_1_1001 := by decide +kernel

theorem test_decode_smmla : decode 0b0000_01110101_0011_0101_1100_00_1_1_1001 = .ok (.smmla .eq true 3 9 12 5) ∧
    encode (.smmla .eq true 3 9 12 5) = 0b0000_01110101_0011_0101_1100_00_1_1_1001 := by decide +kernel

theorem test_decode_smmls : decode 0b1100_01110101_0011_0101_1100_11_1_1_1001 = .ok (.smmls .gt true 3 9 12 5) ∧
    encode (.smmls .gt true 3 9 12 5) = 0b1100_01110101_0011_0101_1100_11_1_1_1001 := by decide +kernel

theorem test_decode_ssat : decode 0b1001_0110101_01011_0011_10011_1_01_1001 = .ok (.ssat .ls 3 11 9 .asr 19) ∧
    encode (.ssat .ls 3 11 9 .asr 19) = 0b1001_0110101_01011_0011_10011_1_01_1001 := by decide +kernel

theorem test_decode_usat : decode 0b0101_0110111_01011_0011_10011_1_01_1001 = .ok (.usat .pl 3 11 9 .asr 19) ∧
    encode (.usat .pl 3 11 9 .asr 19) = 0b0101_0110111_01011_0011_10011_1_01_1001 := by decide +kernel

theorem test_decode_ssat16 : decode 0b1110_01101010_1011_0011_11110011_1001 = .ok (.ssat16 .al 3 11 9) ∧
    encode (.ssat16 .al 3 11 9) = 0b1110_01101010_1011_0011_11110011_1001 := by decide +kernel

theorem test_decode_usat16 : decode 0b0000_01101110_1011_0011_11110011_1001 = .ok (.usat16 .eq 3 11 9) ∧
    encode (.usat16 .eq 3 11 9) = 0b0000_01101110_1011_0011_11110011_1001 := by decide +kernel

theorem test_decode_usad8 : decode 0b1100_01111000_0011_1111_1100_0001_1001 = .ok (.usad8 .gt 3 9 12) ∧
    encode (.usad8 .gt 3 9 12) = 0b1100_01111000_0011_1111_1100_0001_1001 := by decide +kernel

theorem test_decode_usada8 : decode 0b1001_01111000_0011_0101_1100_0001_1001 = .ok (.usada8 .ls 3 9 12 5) ∧
    encode (.usada8 .ls 3 9 12 5) = 0b1001_01111000_0011_0101_1100_0001_1001 := by decide +kernel

theorem test_decode_pkhbt : decode 0b0101_01101000_0101_0011_10011_001_1001 = .ok (.pkhbt .pl 3 5 9 19) ∧
    encode (.pkhbt .pl 3 5 9 19) = 0b0101_01101000_0101_0011_10011_001_1001 := by decide +kernel

theorem test_decode_pkhtb : decode 0b1110_01101000_0101_0011_10011_101_1001 = .ok (.pkhtb .al 3 5 9 19) ∧
    encode (.pkhtb .al 3 5 9 19) = 0b1110_01101000_0101_0011_10011_101_1001 := by decide +kernel

theorem test_decode_rev : decode 0b0000_011010111111_0011_11110011_1001 = .ok (.rev .eq 3 9) ∧
    encode (.rev .eq 3 9) = 0b0000_011010111111_0011_11110011_1001 := by decide +kernel

theorem test_decode_rev16 : decode 0b1100_011010111111_0011_11111011_1001 = .ok (.rev16 .gt 3 9) ∧
    encode (.rev16 .gt 3 9) = 0b1100_011010111111_0011_11111011_1001 := by decide +kernel

theorem test_decode_revsh : decode 0b1001_011011111111_0011_11111011_1001 = .ok (.revsh .ls 3 9) ∧
    encode (.revsh .ls 3 9) = 0b1001_011011111111_0011_11111011_1001 := by decide +kernel

/-! ### One step of each instruction -/

/-- `96_test_vectors_families.md`, line 51. -/
theorem test_step_sxtab16 : after (start core6 [(1, 0x00010002), (2, 0x80FF7F81)]
    (flagsOf 0b0000 false 0b0000) 0xE6810072) =
    some (regsOf [(0, 0x0000FF83), (1, 0x00010002), (2, 0x80FF7F81)], (flagsOf 0b0000 false 0b0000), 0x8004) := by decide +kernel

/-- `96_test_vectors_families.md`, line 52. -/
theorem test_step_sxtab : after (start core6 [(1, 0x00010002), (2, 0x80FF7F81)]
    (flagsOf 0b0000 false 0b0000) 0xE6A10072) =
    some (regsOf [(0, 0x0000FF83), (1, 0x00010002), (2, 0x80FF7F81)], (flagsOf 0b0000 false 0b0000), 0x8004) := by decide +kernel

/-- `96_test_vectors_families.md`, line 53. -/
theorem test_step_sxtah : after (start core6 [(1, 0x00010002), (2, 0x80FF7F81)]
    (flagsOf 0b0000 false 0b0000) 0xE6B10072) =
    some (regsOf [(0, 0x00017F83), (1, 0x00010002), (2, 0x80FF7F81)], (flagsOf 0b0000 false 0b0000), 0x8004) := by decide +kernel

/-- `96_test_vectors_families.md`, line 54. -/
theorem test_step_uxtab16 : after (start core6 [(1, 0x00010002), (2, 0x80FF7F81)]
    (flagsOf 0b0000 false 0b0000) 0xE6C10072) =
    some (regsOf [(0, 0x01000083), (1, 0x00010002), (2, 0x80FF7F81)], (flagsOf 0b0000 false 0b0000), 0x8004) := by decide +kernel

/-- `96_test_vectors_families.md`, line 55. -/
theorem test_step_uxtab : after (start core6 [(1, 0x00010002), (2, 0x80FF7F81)]
    (flagsOf 0b0000 false 0b0000) 0xE6E10072) =
    some (regsOf [(0, 0x00010083), (1, 0x00010002), (2, 0x80FF7F81)], (flagsOf 0b0000 false 0b0000), 0x8004) := by decide +kernel

/-- `96_test_vectors_families.md`, line 56. -/
theorem test_step_uxtah : after (start core6 [(1, 0x00010002), (2, 0x80FF7F81)]
    (flagsOf 0b0000 false 0b0000) 0xE6F10072) =
    some (regsOf [(0, 0x00017F83), (1, 0x00010002), (2, 0x80FF7F81)], (flagsOf 0b0000 false 0b0000), 0x8004) := by decide +kernel

/-- `96_test_vectors_families.md`, line 27. -/
theorem test_step_sxtb16 : after (start core6 [(4, 0x80FF7F81)]
    (flagsOf 0b0000 false 0b0000) 0xE68F3074) =
    some (regsOf [(3, 0xFFFFFF81), (4, 0x80FF7F81)], (flagsOf 0b0000 false 0b0000), 0x8004) := by decide +kernel

/-- `96_test_vectors_families.md`, line 85. -/
theorem test_step_sxtb : after (start core6 [(1, 0x0000007F)]
    (flagsOf 0b0000 true 0b1010) 0xE6AF0071) =
    some (regsOf [(0, 0x0000007F), (1, 0x0000007F)], (flagsOf 0b0000 true 0b1010), 0x8004) := by decide +kernel

/-- `96_test_vectors_families.md`, line 28. -/
theorem test_step_sxtb_b : after (start core6 [(4, 0x80FF7F81)]
    (flagsOf 0b0000 false 0b0000) 0xE6AF3074) =
    some (regsOf [(3, 0xFFFFFF81), (4, 0x80FF7F81)], (flagsOf 0b0000 false 0b0000), 0x8004) := by decide +kernel

/-- `96_test_vectors_families.md`, line 29. -/
theorem test_step_sxth : after (start core6 [(4, 0x80FF7F81)]
    (flagsOf 0b0000 false 0b0000) 0xE6BF3074) =
    some (regsOf [(3, 0x00007F81), (4, 0x80FF7F81)], (flagsOf 0b0000 false 0b0000), 0x8004) := by decide +kernel

/-- `96_test_vectors_families.md`, line 30. -/
theorem test_step_uxtb16 : after (start core6 [(4, 0x80FF7F81)]
    (flagsOf 0b0000 false 0b0000) 0xE6CF3074) =
    some (regsOf [(3, 0x00FF0081), (4, 0x80FF7F81)], (flagsOf 0b0000 false 0b0000), 0x8004) := by decide +kernel

/-- `96_test_vectors_families.md`, line 86. -/
theorem test_step_uxtb : after (start core6 [(0, 0x12345678), (1, 0xFFFFFFFF)]
    (flagsOf 0b0100 false 0b0000) 0xE6EF0071) =
    some (regsOf [(0, 0x000000FF), (1, 0xFFFFFFFF)], (flagsOf 0b0100 false 0b0000), 0x8004) := by decide +kernel

/-- `96_test_vectors_families.md`, line 32. -/
theorem test_step_uxth : after (start core6 [(4, 0x80FF7F81)]
    (flagsOf 0b0000 false 0b0000) 0xE6FF3074) =
    some (regsOf [(3, 0x00007F81), (4, 0x80FF7F81)], (flagsOf 0b0000 false 0b0000), 0x8004) := by decide +kernel

/-- `96_test_vectors_families.md`, line 94. -/
theorem test_step_sel : after (start core6 [(1, 0x11223344), (2, 0xAABBCCDD)]
    (flagsOf 0b0000 false 0b0001) 0xE6810FB2) =
    some (regsOf [(0, 0xAABBCC44), (1, 0x11223344), (2, 0xAABBCCDD)], (flagsOf 0b0000 false 0b0001), 0x8004) := by decide +kernel

/-- `96_test_vectors_families.md`, line 93. -/
theorem test_step_sel_b : after (start core6 [(1, 0x11223344), (2, 0xAABBCCDD)]
    (flagsOf 0b0000 false 0b0000) 0xE6810FB2) =
    some (regsOf [(0, 0xAABBCCDD), (1, 0x11223344), (2, 0xAABBCCDD)], (flagsOf 0b0000 false 0b0000), 0x8004) := by decide +kernel

/-- `96_test_vectors_families.md`, line 118. -/
theorem test_step_sadd16 : after (start core6 [(1, 0x7FFF8000), (2, 0x00018000)]
    (flagsOf 0b0000 false 0b0000) 0xE6110F12) =
    some (regsOf [(0, 0x80000000), (1, 0x7FFF8000), (2, 0x00018000)], (flagsOf 0b0000 false 0b1100), 0x8004) := by decide +kernel

/-- `96_test_vectors_families.md`, line 139. -/
theorem test_step_sadd16_b : after (start core6 [(1, 0x00010001), (2, 0xFFFEFFFE)]
    (flagsOf 0b0000 false 0b0000) 0xE6111F12) =
    some (regsOf [(1, 0xFFFFFFFF), (2, 0xFFFEFFFE)], (flagsOf 0b0000 false 0b0000), 0x8004) := by decide +kernel

/-- `96_test_vectors_families.md`, line 131. -/
theorem test_step_saddsubx : after (start core6 [(1, 0x00010002), (2, 0x00030004)]
    (flagsOf 0b0000 false 0b0000) 0xE6110F32) =
    some (regsOf [(0, 0x0005FFFF), (1, 0x00010002), (2, 0x00030004)], (flagsOf 0b0000 false 0b1100), 0x8004) := by decide +kernel

/-- `96_test_vectors_families.md`, line 119. -/
theorem test_step_saddsubx_b : after (start core6 [(1, 0x7FFF8000), (2, 0x00018000)]
    (flagsOf 0b0000 false 0b0000) 0xE6110F32) =
    some (regsOf [(0, 0xFFFF7FFF), (1, 0x7FFF8000), (2, 0x00018000)], (flagsOf 0b0000 false 0b0000), 0x8004) := by decide +kernel

/-- `96_test_vectors_families.md`, line 120. -/
theorem test_step_ssubaddx : after (start core6 [(1, 0x7FFF8000), (2, 0x00018000)]
    (flagsOf 0b0000 false 0b0000) 0xE6110F52) =
    some (regsOf [(0, 0xFFFF8001), (1, 0x7FFF8000), (2, 0x00018000)], (flagsOf 0b0000 false 0b1100), 0x8004) := by decide +kernel

/-- `96_test_vectors_families.md`, line 121. -/
theorem test_step_ssub16 : after (start core6 [(1, 0x7FFF8000), (2, 0x00018000)]
    (flagsOf 0b0000 false 0b0000) 0xE6110F72) =
    some (regsOf [(0, 0x7FFE0000), (1, 0x7FFF8000), (2, 0x00018000)], (flagsOf 0b0000 false 0b1111), 0x8004) := by decide +kernel

/-- `96_test_vectors_families.md`, line 133. -/
theorem test_step_ssub16_b : after (start core6 [(1, 0x00010002), (2, 0x00030004)]
    (flagsOf 0b0000 false 0b0000) 0xE6110F72) =
    some (regsOf [(0, 0xFFFEFFFE), (1, 0x00010002), (2, 0x00030004)], (flagsOf 0b0000 false 0b0000), 0x8004) := by decide +kernel

/-- `96_test_vectors_families.md`, line 122. -/
theorem test_step_sadd8 : after (start core6 [(1, 0x7F80FF01), (2, 0x0180017F)]
    (flagsOf 0b0000 false 0b0000) 0xE6110F92) =
    some (regsOf [(0, 0x80000080), (1, 0x7F80FF01), (2, 0x0180017F)], (flagsOf 0b0000 false 0b1011), 0x8004) := by decide +kernel

/-- `96_test_vectors_families.md`, line 123. -/
theorem test_step_ssub8 : after (start core6 [(1, 0x7F80FF01), (2, 0x0180017F)]
    (flagsOf 0b0000 false 0b0000) 0xE6110FF2) =
    some (regsOf [(0, 0x7E00FE82), (1, 0x7F80FF01), (2, 0x0180017F)], (flagsOf 0b0000 false 0b1100), 0x8004) := by decide +kernel

/-- `96_test_vectors_families.md`, line 146. -/
theorem test_step_qadd16 : after (start core6 [(1, 0x7FFF8000), (2, 0x00018000)]
    (flagsOf 0b0000 false 0b1001) 0xE6210F12) =
    some (regsOf [(0, 0x7FFF8000), (1, 0x7FFF8000), (2, 0x00018000)], (flagsOf 0b0000 false 0b1001), 0x8004) := by decide +kernel

/-- `96_test_vectors_families.md`, line 158. -/
theorem test_step_qadd16_b : after (start core6 [(1, 0x12345678), (2, 0x11111111)]
    (flagsOf 0b0000 false 0b0000) 0xE6210F12) =
    some (regsOf [(0, 0x23456789), (1, 0x12345678), (2, 0x11111111)], (flagsOf 0b0000 false 0b0000), 0x8004) := by decide +kernel

/-- `96_test_vectors_families.md`, line 147. -/
theorem test_step_qaddsubx : after (start core6 [(1, 0x7FFF8000), (2, 0x00018000)]
    (flagsOf 0b0000 false 0b1001) 0xE6210F32) =
    some (regsOf [(0, 0xFFFF8000), (1, 0x7FFF8000), (2, 0x00018000)], (flagsOf 0b0000 false 0b1001), 0x8004) := by decide +kernel

/-- `96_test_vectors_families.md`, line 156. -/
theorem test_step_qaddsubx_b : after (start core6 [(1, 0x7FFF8000), (2, 0x7FFF7FFF)]
    (flagsOf 0b0000 false 0b0000) 0xE6210F32) =
    some (regsOf [(0, 0x7FFF8000), (1, 0x7FFF8000), (2, 0x7FFF7FFF)], (flagsOf 0b0000 false 0b0000), 0x8004) := by decide +kernel

/-- `96_test_vectors_families.md`, line 148. -/
theorem test_step_qsubaddx : after (start core6 [(1, 0x7FFF8000), (2, 0x00018000)]
    (flagsOf 0b0000 false 0b1001) 0xE6210F52) =
    some (regsOf [(0, 0x7FFF8001), (1, 0x7FFF8000), (2, 0x00018000)], (flagsOf 0b0000 false 0b1001), 0x8004) := by decide +kernel

/-- `96_test_vectors_families.md`, line 157. -/
theorem test_step_qsubaddx_b : after (start core6 [(1, 0x80007FFF), (2, 0x7FFF7FFF)]
    (flagsOf 0b0000 false 0b0000) 0xE6210F52) =
    some (regsOf [(0, 0x80007FFF), (1, 0x80007FFF), (2, 0x7FFF7FFF)], (flagsOf 0b0000 false 0b0000), 0x8004) := by decide +kernel

/-- `96_test_vectors_families.md`, line 149. -/
theorem test_step_qsub16 : after (start core6 [(1, 0x7FFF8000), (2, 0x00018000)]
    (flagsOf 0b0000 false 0b1001) 0xE6210F72) =
    some (regsOf [(0, 0x7FFE0000), (1, 0x7FFF8000), (2, 0x00018000)], (flagsOf 0b0000 false 0b1001), 0x8004) := by decide +kernel

/-- `96_test_vectors_families.md`, line 153. -/
theorem test_step_qsub16_b : after (start core6 [(1, 0x80007FFF), (2, 0x0001FFFF)]
    (flagsOf 0b0000 false 0b0000) 0xE6210F72) =
    some (regsOf [(0, 0x80007FFF), (1, 0x80007FFF), (2, 0x0001FFFF)], (flagsOf 0b0000 false 0b0000), 0x8004) := by decide +kernel

/-- `96_test_vectors_families.md`, line 150. -/
theorem test_step_qadd8 : after (start core6 [(1, 0x7F80FF01), (2, 0x0180017F)]
    (flagsOf 0b0000 false 0b1001) 0xE6210F92) =
    some (regsOf [(0, 0x7F80007F), (1, 0x7F80FF01), (2, 0x0180017F)], (flagsOf 0b0000 false 0b1001), 0x8004) := by decide +kernel

/-- `96_test_vectors_families.md`, line 154. -/
theorem test_step_qadd8_b : after (start core6 [(1, 0x7F7F8080), (2, 0x017F80FF)]
    (flagsOf 0b0000 false 0b0000) 0xE6210F92) =
    some (regsOf [(0, 0x7F7F8080), (1, 0x7F7F8080), (2, 0x017F80FF)], (flagsOf 0b0000 false 0b0000), 0x8004) := by decide +kernel

/-- `96_test_vectors_families.md`, line 151. -/
theorem test_step_qsub8 : after (start core6 [(1, 0x7F80FF01), (2, 0x0180017F)]
    (flagsOf 0b0000 false 0b1001) 0xE6210FF2) =
    some (regsOf [(0, 0x7E00FE82), (1, 0x7F80FF01), (2, 0x0180017F)], (flagsOf 0b0000 false 0b1001), 0x8004) := by decide +kernel

/-- `96_test_vectors_families.md`, line 155. -/
theorem test_step_qsub8_b : after (start core6 [(1, 0x807F007F), (2, 0x0180FF80)]
    (flagsOf 0b0000 false 0b0000) 0xE6210FF2) =
    some (regsOf [(0, 0x807F017F), (1, 0x807F007F), (2, 0x0180FF80)], (flagsOf 0b0000 false 0b0000), 0x8004) := by decide +kernel

/-- `96_test_vectors_families.md`, line 164. -/
theorem test_step_shadd16 : after (start core6 [(1, 0x7FFF8000), (2, 0x00018000)]
    (flagsOf 0b0000 false 0b1001) 0xE6310F12) =
    some (regsOf [(0, 0x40008000), (1, 0x7FFF8000), (2, 0x00018000)], (flagsOf 0b0000 false 0b1001), 0x8004) := by decide +kernel

/-- `96_test_vectors_families.md`, line 171. -/
theorem test_step_shadd16_b : after (start core6 [(1, 0x00010003), (2, 0x00000000)]
    (flagsOf 0b0000 false 0b0000) 0xE6310F12) =
    some (regsOf [(0, 0x00000001), (1, 0x00010003), (2, 0x00000000)], (flagsOf 0b0000 false 0b0000), 0x8004) := by decide +kernel

/-- `96_test_vectors_families.md`, line 165. -/
theorem test_step_shaddsubx : after (start core6 [(1, 0x7FFF8000), (2, 0x00018000)]
    (flagsOf 0b0000 false 0b1001) 0xE6310F32) =
    some (regsOf [(0, 0xFFFFBFFF), (1, 0x7FFF8000), (2, 0x00018000)], (flagsOf 0b0000 false 0b1001), 0x8004) := by decide +kernel

/-- `96_test_vectors_families.md`, line 166. -/
theorem test_step_shsubaddx : after (start core6 [(1, 0x7FFF8000), (2, 0x00018000)]
    (flagsOf 0b0000 false 0b1001) 0xE6310F52) =
    some (regsOf [(0, 0x7FFFC000), (1, 0x7FFF8000), (2, 0x00018000)], (flagsOf 0b0000 false 0b1001), 0x8004) := by decide +kernel

/-- `96_test_vectors_families.md`, line 167. -/
theorem test_step_shsub16 : after (start core6 [(1, 0x7FFF8000), (2, 0x00018000)]
    (flagsOf 0b0000 false 0b1001) 0xE6310F72) =
    some (regsOf [(0, 0x3FFF0000), (1, 0x7FFF8000), (2, 0x00018000)], (flagsOf 0b0000 false 0b1001), 0x8004) := by decide +kernel

/-- `96_test_vectors_families.md`, line 173. -/
theorem test_step_shsub16_b : after (start core6 [(1, 0x7FFF0000), (2, 0x80000001)]
    (flagsOf 0b0000 false 0b0000) 0xE6310F72) =
    some (regsOf [(0, 0x7FFFFFFF), (1, 0x7FFF0000), (2, 0x80000001)], (flagsOf 0b0000 false 0b0000), 0x8004) := by decide +kernel

/-- `96_test_vectors_families.md`, line 168. -/
theorem test_step_shadd8 : after (start core6 [(1, 0x7F80FF01), (2, 0x0180017F)]
    (flagsOf 0b0000 false 0b1001) 0xE6310F92) =
    some (regsOf [(0, 0x40800040), (1, 0x7F80FF01), (2, 0x0180017F)], (flagsOf 0b0000 false 0b1001), 0x8004) := by decide +kernel

/-- `96_test_vectors_families.md`, line 175. -/
theorem test_step_shadd8_b : after (start core6 [(1, 0x7F7FFF01), (2, 0x7F000000)]
    (flagsOf 0b0000 false 0b0000) 0xE6310F92) =
    some (regsOf [(0, 0x7F3FFF00), (1, 0x7F7FFF01), (2, 0x7F000000)], (flagsOf 0b0000 false 0b0000), 0x8004) := by decide +kernel

/-- `96_test_vectors_families.md`, line 169. -/
theorem test_step_shsub8 : after (start core6 [(1, 0x7F80FF01), (2, 0x0180017F)]
    (flagsOf 0b0000 false 0b1001) 0xE6310FF2) =
    some (regsOf [(0, 0x3F00FFC1), (1, 0x7F80FF01), (2, 0x0180017F)], (flagsOf 0b0000 false 0b1001), 0x8004) := by decide +kernel

/-- `96_test_vectors_families.md`, line 176. -/
theorem test_step_shsub8_b : after (start core6 [(1, 0x7F800001), (2, 0x807F0100)]
    (flagsOf 0b0000 false 0b0000) 0xE6310FF2) =
    some (regsOf [(0, 0x7F80FF00), (1, 0x7F800001), (2, 0x807F0100)], (flagsOf 0b0000 false 0b0000), 0x8004) := by decide +kernel

/-- `96_test_vectors_families.md`, line 182. -/
theorem test_step_uadd16 : after (start core6 [(1, 0xFFFF0001), (2, 0x00010002)]
    (flagsOf 0b0000 false 0b0000) 0xE6510F12) =
    some (regsOf [(0, 0x00000003), (1, 0xFFFF0001), (2, 0x00010002)], (flagsOf 0b0000 false 0b1100), 0x8004) := by decide +kernel

/-- `96_test_vectors_families.md`, line 188. -/
theorem test_step_uadd16_b : after (start core6 [(1, 0x00000000), (2, 0x00000000)]
    (flagsOf 0b0000 false 0b1111) 0xE6510F12) =
    some (regsOf [(0, 0x00000000), (1, 0x00000000), (2, 0x00000000)], (flagsOf 0b0000 false 0b0000), 0x8004) := by decide +kernel

/-- `96_test_vectors_families.md`, line 183. -/
theorem test_step_uaddsubx : after (start core6 [(1, 0xFFFF0001), (2, 0x00010002)]
    (flagsOf 0b0000 false 0b0000) 0xE6510F32) =
    some (regsOf [(0, 0x00010000), (1, 0xFFFF0001), (2, 0x00010002)], (flagsOf 0b0000 false 0b1111), 0x8004) := by decide +kernel

/-- `96_test_vectors_families.md`, line 184. -/
theorem test_step_usubaddx : after (start core6 [(1, 0xFFFF0001), (2, 0x00010002)]
    (flagsOf 0b0000 false 0b0000) 0xE6510F52) =
    some (regsOf [(0, 0xFFFD0002), (1, 0xFFFF0001), (2, 0x00010002)], (flagsOf 0b0000 false 0b1100), 0x8004) := by decide +kernel

/-- `96_test_vectors_families.md`, line 185. -/
theorem test_step_usub16 : after (start core6 [(1, 0xFFFF0001), (2, 0x00010002)]
    (flagsOf 0b0000 false 0b0000) 0xE6510F72) =
    some (regsOf [(0, 0xFFFEFFFF), (1, 0xFFFF0001), (2, 0x00010002)], (flagsOf 0b0000 false 0b1100), 0x8004) := by decide +kernel

/-- `95_test_vectors.md`, line 677. -/
theorem test_step_uadd8 : after (start core6 [(0, 0x55555555), (1, 0xFF000001), (2, 0x01000001)]
    (flagsOf 0b1111 false 0b0110) 0xE6510F92) =
    some (regsOf [(0, 0x00000002), (1, 0xFF000001), (2, 0x01000001)], (flagsOf 0b1111 false 0b1000), 0x8004) := by decide +kernel

/-- `96_test_vectors_families.md`, line 190. -/
theorem test_step_uadd8_b : after (start core6 [(1, 0x00000000), (2, 0x00000000)]
    (flagsOf 0b0000 false 0b1111) 0xE6510F92) =
    some (regsOf [(0, 0x00000000), (1, 0x00000000), (2, 0x00000000)], (flagsOf 0b0000 false 0b0000), 0x8004) := by decide +kernel

/-- `96_test_vectors_families.md`, line 198. -/
theorem test_step_usub8 : after (start core6 [(1, 0x10203040), (2, 0x10213F41)]
    (flagsOf 0b0000 false 0b0000) 0xE6510FF2) =
    some (regsOf [(0, 0x00FFF1FF), (1, 0x10203040), (2, 0x10213F41)], (flagsOf 0b0000 false 0b1000), 0x8004) := by decide +kernel

/-- `96_test_vectors_families.md`, line 206. -/
theorem test_step_uqadd16 : after (start core6 [(1, 0xFFFF0001), (2, 0x00010002)]
    (flagsOf 0b0000 false 0b0110) 0xE6610F12) =
    some (regsOf [(0, 0xFFFF0003), (1, 0xFFFF0001), (2, 0x00010002)], (flagsOf 0b0000 false 0b0110), 0x8004) := by decide +kernel

/-- `96_test_vectors_families.md`, line 212. -/
theorem test_step_uqadd16_b : after (start core6 [(1, 0xFFFF8000), (2, 0xFFFF8000)]
    (flagsOf 0b0000 false 0b0000) 0xE6610F12) =
    some (regsOf [(0, 0xFFFFFFFF), (1, 0xFFFF8000), (2, 0xFFFF8000)], (flagsOf 0b0000 false 0b0000), 0x8004) := by decide +kernel

/-- `96_test_vectors_families.md`, line 207. -/
theorem test_step_uqaddsubx : after (start core6 [(1, 0xFFFF0001), (2, 0x00010002)]
    (flagsOf 0b0000 false 0b0110) 0xE6610F32) =
    some (regsOf [(0, 0xFFFF0000), (1, 0xFFFF0001), (2, 0x00010002)], (flagsOf 0b0000 false 0b0110), 0x8004) := by decide +kernel

/-- `96_test_vectors_families.md`, line 214. -/
theorem test_step_uqaddsubx_b : after (start core6 [(1, 0x80000001), (2, 0x00028000)]
    (flagsOf 0b0000 false 0b0000) 0xE6610F32) =
    some (regsOf [(0, 0xFFFF0000), (1, 0x80000001), (2, 0x00028000)], (flagsOf 0b0000 false 0b0000), 0x8004) := by decide +kernel

/-- `96_test_vectors_families.md`, line 208. -/
theorem test_step_uqsubaddx : after (start core6 [(1, 0xFFFF0001), (2, 0x00010002)]
    (flagsOf 0b0000 false 0b0110) 0xE6610F52) =
    some (regsOf [(0, 0xFFFD0002), (1, 0xFFFF0001), (2, 0x00010002)], (flagsOf 0b0000 false 0b0110), 0x8004) := by decide +kernel

/-- `96_test_vectors_families.md`, line 215. -/
theorem test_step_uqsubaddx_b : after (start core6 [(1, 0x0001FFFF), (2, 0x00010002)]
    (flagsOf 0b0000 false 0b0000) 0xE6610F52) =
    some (regsOf [(0, 0x0000FFFF), (1, 0x0001FFFF), (2, 0x00010002)], (flagsOf 0b0000 false 0b0000), 0x8004) := by decide +kernel

/-- `96_test_vectors_families.md`, line 209. -/
theorem test_step_uqsub16 : after (start core6 [(1, 0xFFFF0001), (2, 0x00010002)]
    (flagsOf 0b0000 false 0b0110) 0xE6610F72) =
    some (regsOf [(0, 0xFFFE0000), (1, 0xFFFF0001), (2, 0x00010002)], (flagsOf 0b0000 false 0b0110), 0x8004) := by decide +kernel

/-- `96_test_vectors_families.md`, line 213. -/
theorem test_step_uqsub16_b : after (start core6 [(1, 0x00001234), (2, 0xFFFF1235)]
    (flagsOf 0b0000 false 0b0000) 0xE6610F72) =
    some (regsOf [(0, 0x00000000), (1, 0x00001234), (2, 0xFFFF1235)], (flagsOf 0b0000 false 0b0000), 0x8004) := by decide +kernel

/-- `96_test_vectors_families.md`, line 210. -/
theorem test_step_uqadd8 : after (start core6 [(1, 0xFF0180FE), (2, 0x01028002)]
    (flagsOf 0b0000 false 0b0110) 0xE6610F92) =
    some (regsOf [(0, 0xFF03FFFF), (1, 0xFF0180FE), (2, 0x01028002)], (flagsOf 0b0000 false 0b0110), 0x8004) := by decide +kernel

/-- `96_test_vectors_families.md`, line 216. -/
theorem test_step_uqadd8_b : after (start core6 [(1, 0x80FF7F00), (2, 0x80FF8000)]
    (flagsOf 0b0000 false 0b0000) 0xE6610F92) =
    some (regsOf [(0, 0xFFFFFF00), (1, 0x80FF7F00), (2, 0x80FF8000)], (flagsOf 0b0000 false 0b0000), 0x8004) := by decide +kernel

/-- `96_test_vectors_families.md`, line 211. -/
theorem test_step_uqsub8 : after (start core6 [(1, 0xFF0180FE), (2, 0x01028002)]
    (flagsOf 0b0000 false 0b0110) 0xE6610FF2) =
    some (regsOf [(0, 0xFE0000FC), (1, 0xFF0180FE), (2, 0x01028002)], (flagsOf 0b0000 false 0b0110), 0x8004) := by decide +kernel

/-- `96_test_vectors_families.md`, line 217. -/
theorem test_step_uqsub8_b : after (start core6 [(1, 0x00FF8001), (2, 0xFF008002)]
    (flagsOf 0b0000 false 0b0000) 0xE6610FF2) =
    some (regsOf [(0, 0x00FF0000), (1, 0x00FF8001), (2, 0xFF008002)], (flagsOf 0b0000 false 0b0000), 0x8004) := by decide +kernel

/-- `96_test_vectors_families.md`, line 223. -/
theorem test_step_uhadd16 : after (start core6 [(1, 0xFFFF0001), (2, 0x00010002)]
    (flagsOf 0b0000 false 0b0110) 0xE6710F12) =
    some (regsOf [(0, 0x80000001), (1, 0xFFFF0001), (2, 0x00010002)], (flagsOf 0b0000 false 0b0110), 0x8004) := by decide +kernel

/-- `96_test_vectors_families.md`, line 229. -/
theorem test_step_uhadd16_b : after (start core6 [(1, 0xFFFFFFFF), (2, 0xFFFFFFFF)]
    (flagsOf 0b0000 false 0b0000) 0xE6710F12) =
    some (regsOf [(0, 0xFFFFFFFF), (1, 0xFFFFFFFF), (2, 0xFFFFFFFF)], (flagsOf 0b0000 false 0b0000), 0x8004) := by decide +kernel

/-- `96_test_vectors_families.md`, line 224. -/
theorem test_step_uhaddsubx : after (start core6 [(1, 0xFFFF0001), (2, 0x00010002)]
    (flagsOf 0b0000 false 0b0110) 0xE6710F32) =
    some (regsOf [(0, 0x80000000), (1, 0xFFFF0001), (2, 0x00010002)], (flagsOf 0b0000 false 0b0110), 0x8004) := by decide +kernel

/-- `96_test_vectors_families.md`, line 231. -/
theorem test_step_uhaddsubx_b : after (start core6 [(1, 0xFFFF0000), (2, 0xFFFFFFFF)]
    (flagsOf 0b0000 false 0b0000) 0xE6710F32) =
    some (regsOf [(0, 0xFFFF8000), (1, 0xFFFF0000), (2, 0xFFFFFFFF)], (flagsOf 0b0000 false 0b0000), 0x8004) := by decide +kernel

/-- `96_test_vectors_families.md`, line 225. -/
theorem test_step_uhsubaddx : after (start core6 [(1, 0xFFFF0001), (2, 0x00010002)]
    (flagsOf 0b0000 false 0b0110) 0xE6710F52) =
    some (regsOf [(0, 0x7FFE0001), (1, 0xFFFF0001), (2, 0x00010002)], (flagsOf 0b0000 false 0b0110), 0x8004) := by decide +kernel

/-- `96_test_vectors_families.md`, line 232. -/
theorem test_step_uhsubaddx_b : after (start core6 [(1, 0x0000FFFF), (2, 0xFFFF0001)]
    (flagsOf 0b0000 false 0b0000) 0xE6710F52) =
    some (regsOf [(0, 0xFFFFFFFF), (1, 0x0000FFFF), (2, 0xFFFF0001)], (flagsOf 0b0000 false 0b0000), 0x8004) := by decide +kernel

/-- `96_test_vectors_families.md`, line 226. -/
theorem test_step_uhsub16 : after (start core6 [(1, 0xFFFF0001), (2, 0x00010002)]
    (flagsOf 0b0000 false 0b0110) 0xE6710F72) =
    some (regsOf [(0, 0x7FFFFFFF), (1, 0xFFFF0001), (2, 0x00010002)], (flagsOf 0b0000 false 0b0110), 0x8004) := by decide +kernel

/-- `96_test_vectors_families.md`, line 230. -/
theorem test_step_uhsub16_b : after (start core6 [(1, 0x00000000), (2, 0x0001FFFF)]
    (flagsOf 0b0000 false 0b0000) 0xE6710F72) =
    some (regsOf [(0, 0xFFFF8000), (1, 0x00000000), (2, 0x0001FFFF)], (flagsOf 0b0000 false 0b0000), 0x8004) := by decide +kernel

/-- `96_test_vectors_families.md`, line 227. -/
theorem test_step_uhadd8 : after (start core6 [(1, 0xFF0180FE), (2, 0x01028002)]
    (flagsOf 0b0000 false 0b0110) 0xE6710F92) =
    some (regsOf [(0, 0x80018080), (1, 0xFF0180FE), (2, 0x01028002)], (flagsOf 0b0000 false 0b0110), 0x8004) := by decide +kernel

/-- `96_test_vectors_families.md`, line 233. -/
theorem test_step_uhadd8_b : after (start core6 [(1, 0xFFFF0100), (2, 0xFF000001)]
    (flagsOf 0b0000 false 0b0000) 0xE6710F92) =
    some (regsOf [(0, 0xFF7F0000), (1, 0xFFFF0100), (2, 0xFF000001)], (flagsOf 0b0000 false 0b0000), 0x8004) := by decide +kernel

/-- `96_test_vectors_families.md`, line 228. -/
theorem test_step_uhsub8 : after (start core6 [(1, 0xFF0180FE), (2, 0x01028002)]
    (flagsOf 0b0000 false 0b0110) 0xE6710FF2) =
    some (regsOf [(0, 0x7FFF007E), (1, 0xFF0180FE), (2, 0x01028002)], (flagsOf 0b0000 false 0b0110), 0x8004) := by decide +kernel

/-- `96_test_vectors_families.md`, line 234. -/
theorem test_step_uhsub8_b : after (start core6 [(1, 0x0000FF01), (2, 0xFF010000)]
    (flagsOf 0b0000 false 0b0000) 0xE6710FF2) =
    some (regsOf [(0, 0x80FF7F00), (1, 0x0000FF01), (2, 0xFF010000)], (flagsOf 0b0000 false 0b0000), 0x8004) := by decide +kernel

/-- `96_test_vectors_families.md`, line 256. -/
theorem test_step_smuad : after (start core6 [(1, 0x80008000), (2, 0x80008000)]
    (flagsOf 0b0000 false 0b0000) 0xE700F211) =
    some (regsOf [(0, 0x80000000), (1, 0x80008000), (2, 0x80008000)], (flagsOf 0b0000 true 0b0000), 0x8004) := by decide +kernel

/-- `96_test_vectors_families.md`, line 240. -/
theorem test_step_smuad_b : after (start core6 [(1, 0x00030002), (2, 0x00050004), (3, 0x00000064)]
    (flagsOf 0b0000 false 0b0000) 0xE700F211) =
    some (regsOf [(0, 0x00000017), (1, 0x00030002), (2, 0x00050004), (3, 0x00000064)], (flagsOf 0b0000 false 0b0000), 0x8004) := by decide +kernel

/-- `96_test_vectors_families.md`, line 261. -/
theorem test_step_smlad : after (start core6 [(1, 0x80007FFF), (2, 0x7FFF8000), (3, 0x80000000)]
    (flagsOf 0b0000 false 0b0000) 0xE7003211) =
    some (regsOf [(0, 0x00010000), (1, 0x80007FFF), (2, 0x7FFF8000), (3, 0x80000000)], (flagsOf 0b0000 true 0b0000), 0x8004) := by decide +kernel

/-- `96_test_vectors_families.md`, line 242. -/
theorem test_step_smlad_b : after (start core6 [(1, 0x00030002), (2, 0x00050004), (3, 0x00000064)]
    (flagsOf 0b0000 false 0b0000) 0xE7003211) =
    some (regsOf [(0, 0x0000007B), (1, 0x00030002), (2, 0x00050004), (3, 0x00000064)], (flagsOf 0b0000 false 0b0000), 0x8004) := by decide +kernel

/-- `96_test_vectors_families.md`, line 244. -/
theorem test_step_smusd : after (start core6 [(1, 0x00030002), (2, 0x00050004), (3, 0x00000064)]
    (flagsOf 0b0000 false 0b0000) 0xE700F251) =
    some (regsOf [(0, 0xFFFFFFF9), (1, 0x00030002), (2, 0x00050004), (3, 0x00000064)], (flagsOf 0b0000 false 0b0000), 0x8004) := by decide +kernel

/-- `96_test_vectors_families.md`, line 265. -/
theorem test_step_smlsd : after (start core6 [(1, 0x00008000), (2, 0x00008000), (3, 0x7FFFFFFF)]
    (flagsOf 0b0000 false 0b0000) 0xE7003251) =
    some (regsOf [(0, 0xBFFFFFFF), (1, 0x00008000), (2, 0x00008000), (3, 0x7FFFFFFF)], (flagsOf 0b0000 true 0b0000), 0x8004) := by decide +kernel

/-- `96_test_vectors_families.md`, line 246. -/
theorem test_step_smlsd_b : after (start core6 [(1, 0x00030002), (2, 0x00050004), (3, 0x00000064)]
    (flagsOf 0b0000 false 0b0000) 0xE7003251) =
    some (regsOf [(0, 0x0000005D), (1, 0x00030002), (2, 0x00050004), (3, 0x00000064)], (flagsOf 0b0000 false 0b0000), 0x8004) := by decide +kernel

/-- `96_test_vectors_families.md`, line 248. -/
theorem test_step_smlald : after (start core6 [(1, 0x00030002), (2, 0x00050004), (4, 0xFFFFFFFF), (5, 0x00000000)]
    (flagsOf 0b0000 false 0b0000) 0xE7454211) =
    some (regsOf [(1, 0x00030002), (2, 0x00050004), (4, 0x00000016), (5, 0x00000001)], (flagsOf 0b0000 false 0b0000), 0x8004) := by decide +kernel

/-- `96_test_vectors_families.md`, line 273. -/
theorem test_step_smlsld : after (start (core .sourceLiteral .wide64 .twoPowField) [(1, 0x80000000), (2, 0x80000000), (4, 0x00000000), (5, 0x80000000)]
    (flagsOf 0b0000 false 0b0000) 0xE7454251) =
    some (regsOf [(1, 0x80000000), (2, 0x80000000), (4, 0xC0000000), (5, 0x7FFFFFFF)], (flagsOf 0b0000 true 0b0000), 0x8004) := by decide +kernel

/-- `96_test_vectors_families.md`, line 250. -/
theorem test_step_smlsld_b : after (start core6 [(1, 0x00030002), (2, 0x00050004), (4, 0x00000000), (5, 0x00000000)]
    (flagsOf 0b0000 false 0b0000) 0xE7454251) =
    some (regsOf [(1, 0x00030002), (2, 0x00050004), (4, 0xFFFFFFF9), (5, 0xFFFFFFFF)], (flagsOf 0b0000 false 0b0000), 0x8004) := by decide +kernel

/-- `96_test_vectors_families.md`, line 280. -/
theorem test_step_smmul : after (start core6 [(1, 0x12345678), (2, 0x9ABCDEF0), (3, 0x00000010)]
    (flagsOf 0b0000 false 0b0000) 0xE750F211) =
    some (regsOf [(0, 0xF8CC93D6), (1, 0x12345678), (2, 0x9ABCDEF0), (3, 0x00000010)], (flagsOf 0b0000 false 0b0000), 0x8004) := by decide +kernel

/-- `96_test_vectors_families.md`, line 282. -/
theorem test_step_smmla : after (start core6 [(1, 0x12345678), (2, 0x9ABCDEF0), (3, 0x00000010)]
    (flagsOf 0b0000 false 0b0000) 0xE7503211) =
    some (regsOf [(0, 0xF8CC93E6), (1, 0x12345678), (2, 0x9ABCDEF0), (3, 0x00000010)], (flagsOf 0b0000 false 0b0000), 0x8004) := by decide +kernel

/-- `96_test_vectors_families.md`, line 284. -/
theorem test_step_smmls : after (start core6 [(1, 0x12345678), (2, 0x9ABCDEF0), (3, 0x00000010)]
    (flagsOf 0b0000 false 0b0000) 0xE75032D1) =
    some (regsOf [(0, 0x07336C39), (1, 0x12345678), (2, 0x9ABCDEF0), (3, 0x00000010)], (flagsOf 0b0000 false 0b0000), 0x8004) := by decide +kernel

/-- `96_test_vectors_families.md`, line 286. -/
theorem test_step_smmls_b : after (start (core .armArm .top32ThenSub .twoPowField) [(1, 0x12345678), (2, 0x9ABCDEF0), (3, 0x00000010)]
    (flagsOf 0b0000 false 0b0000) 0xE75032D1) =
    some (regsOf [(0, 0x07336C3A), (1, 0x12345678), (2, 0x9ABCDEF0), (3, 0x00000010)], (flagsOf 0b0000 false 0b0000), 0x8004) := by decide +kernel

/-- `96_test_vectors_families.md`, line 335. -/
theorem test_step_ssat : after (start core6 [(0, 0xAAAAAAAA), (1, 0x00000001)]
    (flagsOf 0b0000 false 0b0000) 0xE6A00011) =
    some (regsOf [(0, 0x00000000), (1, 0x00000001)], (flagsOf 0b0000 true 0b0000), 0x8004) := by decide +kernel

/-- `96_test_vectors_families.md`, line 340. -/
theorem test_step_ssat_b : after (start core6 [(1, 0x10000001)]
    (flagsOf 0b0000 false 0b0000) 0xE6AF0211) =
    some (regsOf [(0, 0x00000010), (1, 0x10000001)], (flagsOf 0b0000 false 0b0000), 0x8004) := by decide +kernel

/-- `96_test_vectors_families.md`, line 346. -/
theorem test_step_usat : after (start core6 [(0, 0xAAAAAAAA), (1, 0x00000100)]
    (flagsOf 0b0000 false 0b0000) 0xE6E80011) =
    some (regsOf [(0, 0x000000FF), (1, 0x00000100)], (flagsOf 0b0000 true 0b0000), 0x8004) := by decide +kernel

/-- `96_test_vectors_families.md`, line 353. -/
theorem test_step_usat_b : after (start (core .armArm .wide64 .twoPowFieldPlus1) [(0, 0xAAAAAAAA), (1, 0x00000200)]
    (flagsOf 0b0000 false 0b0000) 0xE6E80011) =
    some (regsOf [(0, 0x000001FF), (1, 0x00000200)], (flagsOf 0b0000 true 0b0000), 0x8004) := by decide +kernel

/-- `96_test_vectors_families.md`, line 373. -/
theorem test_step_ssat16 : after (start core6 [(1, 0x0080FF7F)]
    (flagsOf 0b0000 false 0b0000) 0xE6A70F31) =
    some (regsOf [(0, 0x007FFF80), (1, 0x0080FF7F)], (flagsOf 0b0000 true 0b0000), 0x8004) := by decide +kernel

/-- `96_test_vectors_families.md`, line 372. -/
theorem test_step_ssat16_b : after (start core6 [(1, 0x007FFF80)]
    (flagsOf 0b0000 false 0b0000) 0xE6A70F31) =
    some (regsOf [(0, 0x007FFF80), (1, 0x007FFF80)], (flagsOf 0b0000 false 0b0000), 0x8004) := by decide +kernel

/-- `96_test_vectors_families.md`, line 379. -/
theorem test_step_usat16 : after (start core6 [(0, 0xAAAAAAAA), (1, 0x0100FF00)]
    (flagsOf 0b0000 false 0b0000) 0xE6E80F31) =
    some (regsOf [(0, 0x00FF0000), (1, 0x0100FF00)], (flagsOf 0b0000 true 0b0000), 0x8004) := by decide +kernel

/-- `96_test_vectors_families.md`, line 384. -/
theorem test_step_usat16_b : after (start (core .armArm .wide64 .twoPowFieldPlus1) [(1, 0x7FFF8000)]
    (flagsOf 0b0000 false 0b0000) 0xE6EF0F31) =
    some (regsOf [(0, 0x7FFF0000), (1, 0x7FFF8000)], (flagsOf 0b0000 true 0b0000), 0x8004) := by decide +kernel

/-- `96_test_vectors_families.md`, line 393. -/
theorem test_step_usad8 : after (start core6 [(0, 0xAAAAAAAA), (1, 0x10FF8000), (2, 0x20FE7F00)]
    (flagsOf 0b0000 false 0b0000) 0xE780F211) =
    some (regsOf [(0, 0x00000012), (1, 0x10FF8000), (2, 0x20FE7F00)], (flagsOf 0b0000 false 0b0000), 0x8004) := by decide +kernel

/-- `96_test_vectors_families.md`, line 400. -/
theorem test_step_usada8 : after (start core6 [(0, 0xAAAAAAAA), (1, 0x10FF8000), (2, 0x20FE7F00), (3, 0x00000100)]
    (flagsOf 0b0000 false 0b0000) 0xE7803211) =
    some (regsOf [(0, 0x00000112), (1, 0x10FF8000), (2, 0x20FE7F00), (3, 0x00000100)], (flagsOf 0b0000 false 0b0000), 0x8004) := by decide +kernel

/-- `96_test_vectors_families.md`, line 413. -/
theorem test_step_pkhbt : after (start core6 [(1, 0x11112222), (2, 0x12345678)]
    (flagsOf 0b0000 false 0b0000) 0xE6810212) =
    some (regsOf [(0, 0x23452222), (1, 0x11112222), (2, 0x12345678)], (flagsOf 0b0000 false 0b0000), 0x8004) := by decide +kernel

/-- `96_test_vectors_families.md`, line 421. -/
theorem test_step_pkhtb : after (start core6 [(1, 0x11112222), (2, 0x82345678)]
    (flagsOf 0b0000 false 0b0000) 0xE6810252) =
    some (regsOf [(0, 0x11114567), (1, 0x11112222), (2, 0x82345678)], (flagsOf 0b0000 false 0b0000), 0x8004) := by decide +kernel

/-- `96_test_vectors_families.md`, line 433. -/
theorem test_step_rev : after (start core6 [(0, 0x55555555), (1, 0x12345678)]
    (flagsOf 0b0000 false 0b0000) 0xE6BF0F31) =
    some (regsOf [(0, 0x78563412), (1, 0x12345678)], (flagsOf 0b0000 false 0b0000), 0x8004) := by decide +kernel

/-- `96_test_vectors_families.md`, line 434. -/
theorem test_step_rev16 : after (start core6 [(0, 0x55555555), (1, 0x12345678)]
    (flagsOf 0b0000 false 0b0000) 0xE6BF0FB1) =
    some (regsOf [(0, 0x34127856), (1, 0x12345678)], (flagsOf 0b0000 false 0b0000), 0x8004) := by decide +kernel

/-- `96_test_vectors_families.md`, line 435. -/
theorem test_step_revsh : after (start core6 [(0, 0x55555555), (1, 0x12345678)]
    (flagsOf 0b0000 false 0b0000) 0xE6FF0FB1) =
    some (regsOf [(0, 0x00007856), (1, 0x12345678)], (flagsOf 0b0000 false 0b0000), 0x8004) := by decide +kernel

/-- `95_test_vectors.md`, line 672: the condition fails. -/
theorem test_step_failed_condition : after (start core6 [(0, 0x55555555), (1, 0xFF000001), (2, 0x01000001)]
    (flagsOf 0b0000 false 0b0110) 0xB6510F92) =
    some (regsOf [(0, 0x55555555), (1, 0xFF000001), (2, 0x01000001)], (flagsOf 0b0000 false 0b0110), 0x8004) := by decide +kernel

/-! ### Refused words (`spec/95_test_vectors.md`) -/

theorem test_refused_unconditional_space : [0xF6BF0F31, 0xF6FF0F31, 0xF6BFFF3F].all
    (fun w => refusal (start core6 [] (flagsOf 0 false 0) w) == some .unconditionalSpace) = true := by decide +kernel

theorem test_refused_not_in_opcode_table : [0xE6FF0F31, 0xE69F0071, 0xE6DF0071, 0xE6910072, 0xE6AF0371, 0xE6010F12, 0xE6410F12, 0xE6110FB2, 0xE6110FD2, 0xE6110012,
      0xE68100B2, 0xE6810032, 0xE6A70031, 0xE710F211, 0xE700F291, 0xE7503291, 0xE780F231, 0xE790F211, 0xE0810002, 0xE1A00000,
      0xEAFFFFFE, 0x00000000, 0xE7F000F0, 0x06FF0F31].all
    (fun w => refusal (start core6 [] (flagsOf 0 false 0) w) == some .notInOpcodeTable) = true := by decide +kernel

theorem test_refused_unpredictable_r15 : [0xE750F2D1, 0xE6AFF071, 0xE6AF007F, 0xE68F0FB2, 0xE681FFB2, 0xE6810FBF, 0xE61F0F12, 0xE700F21F, 0xE700FF11, 0xE70FF211,
      0xE745F211, 0xE74F4211, 0xE74FF211, 0xE6A7F011, 0xE6E8001F, 0xE6A7FF31, 0xE780F21F, 0xE68F0012, 0xE681F052, 0xE6BFFF31,
      0xE6FF0FBF, 0x06AFF071].all
    (fun w => refusal (start core6 [] (flagsOf 0 false 0) w) == some .unpredictableR15) = true := by decide +kernel

theorem test_refused_unpredictable_rdhi_rdlo : [0xE7444211, 0xE7444251, 0xE7411211, 0x17444211].all
    (fun w => refusal (start core6 [] (flagsOf 0 false 0) w) == some .unpredictableRdHiRdLo) = true := by decide +kernel

/-! ### The assembler text of three vectors of `spec/96_test_vectors_families.md` (R59; log entries 17 and 18) -/

theorem test_print_usat : (decode 0xE6E80011).toOption.map printInstr = some "USAT R0, #8, R1" ∧
    (decode 0xE6E80251).toOption.map printInstr = some "USAT R0, #8, R1, ASR #4" := by decide +kernel

theorem test_print_ssat16 : (decode 0xE6A70F31).toOption.map printInstr = some "SSAT16 R0, #8, R1" := by decide +kernel


/-! ### Witnesses: inputs that meet the hypotheses of each statement, clause by clause -/

/-- The two-instruction program USUB8 R0, R1, R2; SEL R0, R2, R1. -/
def minimum : State :=
  State.launch core6 (regsOf [(1, 0x12F45678), (2, 0x9ABCDEF0)]) (flagsOf 0b0101 true 0b1001) 0x8000 [0xE6510FF2, 0xE6820FB1]

/-- SADD16 R0, R1, R2, launched. -/
def adding : State := start core6 [(1, 0x7FFF8000), (2, 0x00018000)] (flagsOf 0b0100 false 0b1001) 0xE6110F12

/-- The same, with the word stored in the other byte order. -/
def addingBig : State := start { core6 with fetchBigEndian := true } [(1, 5)] (flagsOf 0 false 0) 0xE6110F12

/-- Every bit of a condition field, a mask and a value met. -/
def meetsRow (c : Cond) (w : Word) (mask value : Word) : Bool := w.extractLsb' 28 4 == c.bits && w &&& mask == value

theorem witness_ExtendWithAdditionResults_words : (
    meetsRow .al 0xE68EFC7F 0x0FF003F0 0x06800070 && (0xE68EFC7F#32).extractLsb' 16 4 != 15 &&
    meetsRow .eq 0x06AEFC7F 0x0FF003F0 0x06A00070 && (0x06AEFC7F#32).extractLsb' 16 4 != 15 &&
    meetsRow .le 0xD6BEFC7F 0x0FF003F0 0x06B00070 && (0xD6BEFC7F#32).extractLsb' 16 4 != 15 &&
    meetsRow .al 0xE6CEFC7F 0x0FF003F0 0x06C00070 && (0xE6CEFC7F#32).extractLsb' 16 4 != 15 &&
    meetsRow .eq 0x06EEFC7F 0x0FF003F0 0x06E00070 && (0x06EEFC7F#32).extractLsb' 16 4 != 15 &&
    meetsRow .le 0xD6FEFC7F 0x0FF003F0 0x06F00070 && (0xD6FEFC7F#32).extractLsb' 16 4 != 15) = true := by decide +kernel

theorem witness_ExtendWithoutAdditionResults_words : (
    meetsRow .al 0xE68FFC7F 0x0FFF03F0 0x068F0070 &&
    meetsRow .eq 0x06AFFC7F 0x0FFF03F0 0x06AF0070 &&
    meetsRow .le 0xD6BFFC7F 0x0FFF03F0 0x06BF0070 &&
    meetsRow .al 0xE6CFFC7F 0x0FFF03F0 0x06CF0070 &&
    meetsRow .eq 0x06EFFC7F 0x0FFF03F0 0x06EF0070 &&
    meetsRow .le 0xD6FFFC7F 0x0FFF03F0 0x06FF0070) = true := by decide +kernel

theorem witness_SelectBytesResult_words : (
    meetsRow .al 0xE68FFFBF 0x0FF00FF0 0x06800FB0) = true := by decide +kernel

theorem witness_SignedParallelResults_words : (
    meetsRow .al 0xE61FFF1F 0x0FF00FF0 0x06100F10 &&
    meetsRow .eq 0x061FFF3F 0x0FF00FF0 0x06100F30 &&
    meetsRow .le 0xD61FFF5F 0x0FF00FF0 0x06100F50 &&
    meetsRow .al 0xE61FFF7F 0x0FF00FF0 0x06100F70 &&
    meetsRow .eq 0x061FFF9F 0x0FF00FF0 0x06100F90 &&
    meetsRow .le 0xD61FFFFF 0x0FF00FF0 0x06100FF0) = true := by decide +kernel

theorem witness_SignedSaturatingParallelResults_words : (
    meetsRow .al 0xE62FFF1F 0x0FF00FF0 0x06200F10 &&
    meetsRow .eq 0x062FFF3F 0x0FF00FF0 0x06200F30 &&
    meetsRow .le 0xD62FFF5F 0x0FF00FF0 0x06200F50 &&
    meetsRow .al 0xE62FFF7F 0x0FF00FF0 0x06200F70 &&
    meetsRow .eq 0x062FFF9F 0x0FF00FF0 0x06200F90 &&
    meetsRow .le 0xD62FFFFF 0x0FF00FF0 0x06200FF0) = true := by decide +kernel

theorem witness_SignedHalvingParallelResults_words : (
    meetsRow .al 0xE63FFF1F 0x0FF00FF0 0x06300F10 &&
    meetsRow .eq 0x063FFF3F 0x0FF00FF0 0x06300F30 &&
    meetsRow .le 0xD63FFF5F 0x0FF00FF0 0x06300F50 &&
    meetsRow .al 0xE63FFF7F 0x0FF00FF0 0x06300F70 &&
    meetsRow .eq 0x063FFF9F 0x0FF00FF0 0x06300F90 &&
    meetsRow .le 0xD63FFFFF 0x0FF00FF0 0x06300FF0) = true := by decide +kernel

theorem witness_UnsignedParallelResults_words : (
    meetsRow .al 0xE65FFF1F 0x0FF00FF0 0x06500F10 &&
    meetsRow .eq 0x065FFF3F 0x0FF00FF0 0x06500F30 &&
    meetsRow .le 0xD65FFF5F 0x0FF00FF0 0x06500F50 &&
    meetsRow .al 0xE65FFF7F 0x0FF00FF0 0x06500F70 &&
    meetsRow .eq 0x065FFF9F 0x0FF00FF0 0x06500F90 &&
    meetsRow .le 0xD65FFFFF 0x0FF00FF0 0x06500FF0) = true := by decide +kernel

theorem witness_UnsignedSaturatingParallelResults_words : (
    meetsRow .al 0xE66FFF1F 0x0FF00FF0 0x06600F10 &&
    meetsRow .eq 0x066FFF3F 0x0FF00FF0 0x06600F30 &&
    meetsRow .le 0xD66FFF5F 0x0FF00FF0 0x06600F50 &&
    meetsRow .al 0xE66FFF7F 0x0FF00FF0 0x06600F70 &&
    meetsRow .eq 0x066FFF9F 0x0FF00FF0 0x06600F90 &&
    meetsRow .le 0xD66FFFFF 0x0FF00FF0 0x06600FF0) = true := by decide +kernel

theorem witness_UnsignedHalvingParallelResults_words : (
    meetsRow .al 0xE67FFF1F 0x0FF00FF0 0x06700F10 &&
    meetsRow .eq 0x067FFF3F 0x0FF00FF0 0x06700F30 &&
    meetsRow .le 0xD67FFF5F 0x0FF00FF0 0x06700F50 &&
    meetsRow .al 0xE67FFF7F 0x0FF00FF0 0x06700F70 &&
    meetsRow .eq 0x067FFF9F 0x0FF00FF0 0x06700F90 &&
    meetsRow .le 0xD67FFFFF 0x0FF00FF0 0x06700FF0) = true := by decide +kernel

theorem witness_DualMultiplyResults_words : (
    meetsRow .al 0xE70FFF3F 0x0FF0F0D0 0x0700F010 &&
    meetsRow .eq 0x070FEF3F 0x0FF000D0 0x07000010 && (0x070FEF3F#32).extractLsb' 12 4 != 15 &&
    meetsRow .le 0xD70FFF7F 0x0FF0F0D0 0x0700F050 &&
    meetsRow .al 0xE70FEF7F 0x0FF000D0 0x07000050 && (0xE70FEF7F#32).extractLsb' 12 4 != 15) = true := by decide +kernel

theorem witness_DualMultiplyLongResults_words : (
    meetsRow .al 0xE74FFF3F 0x0FF000D0 0x07400010 &&
    meetsRow .eq 0x074FFF7F 0x0FF000D0 0x07400050) = true := by decide +kernel

theorem witness_MostSignificantWordResults_words : (
    meetsRow .al 0xE75FFF3F 0x0FF0F0D0 0x0750F010 &&
    meetsRow .eq 0x075FEF3F 0x0FF000D0 0x07500010 && (0x075FEF3F#32).extractLsb' 12 4 != 15 &&
    meetsRow .le 0xD75FFFFF 0x0FF000D0 0x075000D0) = true := by decide +kernel

theorem witness_SaturateResults_words : (
    meetsRow .al 0xE6BFFFDF 0x0FE00030 0x06A00010 &&
    meetsRow .eq 0x06FFFFDF 0x0FE00030 0x06E00010) = true := by decide +kernel

theorem witness_SaturateHalfwordsResults_words : (
    meetsRow .al 0xE6AFFF3F 0x0FF00FF0 0x06A00F30 &&
    meetsRow .eq 0x06EFFF3F 0x0FF00FF0 0x06E00F30) = true := by decide +kernel

theorem witness_AbsoluteDifferencesResults_words : (
    meetsRow .al 0xE78FFF1F 0x0FF0F0F0 0x0780F010 &&
    meetsRow .eq 0x078FEF1F 0x0FF000F0 0x07800010 && (0x078FEF1F#32).extractLsb' 12 4 != 15) = true := by decide +kernel

theorem witness_PackHalfwordResults_words : (
    meetsRow .al 0xE68FFF9F 0x0FF00070 0x06800010 &&
    meetsRow .eq 0x068FFFDF 0x0FF00070 0x06800050) = true := by decide +kernel

theorem witness_ReverseBytesResults_words : (
    meetsRow .al 0xE6BFFF3F 0x0FFF0FF0 0x06BF0F30 &&
    meetsRow .eq 0x06BFFFBF 0x0FFF0FF0 0x06BF0FB0 &&
    meetsRow .le 0xD6FFFFBF 0x0FFF0FF0 0x06FF0FB0) = true := by decide +kernel

theorem witness_DualMultiplyLongResults : (0 : GPR) ≠ 14 := by decide

theorem witness_ConditionTable : (start core6 [] (flagsOf 0 false 0) 0xF6110F12).fetchWord = some 0xF6110F12 ∧
    (0xF6110F12 : Word).extractLsb' 28 4 = 15 := by decide +kernel

theorem witness_OpcodeRowsDisjoint : ∃ r ∈ opcodeTable, ∃ q ∈ opcodeTable,
    r.matchesWord 0xE6AF0072 = true ∧ q.matchesWord 0xE6AF0072 = true := by decide +kernel

theorem witness_DecodeInvertsEncode : Instr.wellFormed (.smlald .al true 14 13 14 14) = true ∧
    Instr.wellFormed (.usat .al 14 31 14 .asr 31) = true := by decide

theorem witness_EncodeInvertsDecode : decode 0xE61FFF1F = .ok (.sadd16 .al 15 15 15) := by decide +kernel

theorem witness_DecodeRejectsExactlyUnlistedWords : decode 0xF6110F12 = .error .unconditionalSpace ∧
    decode 0xE1A00000 = .error .notInOpcodeTable := by decide +kernel

/-- One word per pair of the first clause, every free bit 1. -/
theorem witness_UnlistedEncodingsRefused_pairs : (
    meetsRow .al 0xE69FFC7F 0x0FF003F0 0x06900070 &&
    meetsRow .al 0xE6DFFC7F 0x0FF003F0 0x06D00070 &&
    meetsRow .al 0xE60FFFFF 0x0FF00F10 0x06000F10 &&
    meetsRow .al 0xE64FFFFF 0x0FF00F10 0x06400F10 &&
    meetsRow .al 0xE67FFFBF 0x0F800FF0 0x06000FB0 &&
    meetsRow .al 0xE67FFFDF 0x0F800FF0 0x06000FD0 &&
    meetsRow .al 0xE70FFFBF 0x0FF000D0 0x07000090 &&
    meetsRow .al 0xE70FFFFF 0x0FF000D0 0x070000D0 &&
    meetsRow .al 0xE74FFFBF 0x0FF000D0 0x07400090 &&
    meetsRow .al 0xE74FFFFF 0x0FF000D0 0x074000D0 &&
    meetsRow .al 0xE75FFF7F 0x0FF000D0 0x07500050 &&
    meetsRow .al 0xE75FFFBF 0x0FF000D0 0x07500090 &&
    meetsRow .al 0xE71FFFFF 0x0FF00010 0x07100010 &&
    meetsRow .al 0xE72FFFFF 0x0FF00010 0x07200010 &&
    meetsRow .al 0xE73FFFFF 0x0FF00010 0x07300010 &&
    meetsRow .al 0xE76FFFFF 0x0FF00010 0x07600010 &&
    meetsRow .al 0xE77FFFFF 0x0FF00010 0x07700010 &&
    meetsRow .al 0xE6FFFF3F 0x0FFF0FF0 0x06FF0F30 &&
    meetsRow .al 0xE6FFFF3F 0x0FF00FF0 0x06F00F30) = true := by decide +kernel

/-- One word per pair of the third clause, bits 11-8 at 14. -/
theorem witness_UnlistedEncodingsRefused_fixed_bits : (
    meetsRow .al 0xE6000E00 0x0F800000 0x06000000 && (0xE6000E00#32).extractLsb' 8 4 != 15 &&
    meetsRow .al 0xE6800EB0 0x0FF000F0 0x068000B0 && (0xE6800EB0#32).extractLsb' 8 4 != 15 &&
    meetsRow .al 0xE6A00E30 0x0FF000F0 0x06A00030 && (0xE6A00E30#32).extractLsb' 8 4 != 15 &&
    meetsRow .al 0xE6E00E30 0x0FF000F0 0x06E00030 && (0xE6E00E30#32).extractLsb' 8 4 != 15 &&
    meetsRow .al 0xE6BF0E30 0x0FFF00F0 0x06BF0030 && (0xE6BF0E30#32).extractLsb' 8 4 != 15 &&
    meetsRow .al 0xE6BF0EB0 0x0FFF00F0 0x06BF00B0 && (0xE6BF0EB0#32).extractLsb' 8 4 != 15 &&
    meetsRow .al 0xE6FF0EB0 0x0FFF00F0 0x06FF00B0 && (0xE6FF0EB0#32).extractLsb' 8 4 != 15) = true := by decide +kernel

theorem witness_UnlistedEncodingsRefused_others :
    ((0xE6BE0F31 : Word) &&& 0x0FF00FF0 = 0x06B00F30 ∧ (0xE6BE0F31 : Word).extractLsb' 16 4 ≠ 15) ∧
    ((0xD7800021 : Word) &&& 0x0FF00000 = 0x07800000 ∧ (0xD7800021 : Word).extractLsb' 4 4 ≠ 1) ∧
    (0xE5F00000 : Word).extractLsb' 23 5 ∉ [0b01100#5, 0b01101#5, 0b01110#5, 0b01111#5] ∧
    (0xE8000000 : Word).extractLsb' 23 5 ∉ [0b01100#5, 0b01101#5, 0b01110#5, 0b01111#5] := by decide +kernel

theorem witness_RegisterFifteenRefused : ((15 : RegNum) ∈ ([15, 0] : List RegNum) ∧ (15 : RegNum) ∈ ([0, 15] : List RegNum)) ∧
    ((15 : RegNum) ∈ ([15, 0, 14] : List RegNum) ∧ (15 : RegNum) ∈ ([0, 15, 14] : List RegNum) ∧
      (15 : RegNum) ∈ ([0, 14, 15] : List RegNum)) ∧
    ((15 : RegNum) ∈ ([15, 0, 1, 14] : List RegNum) ∧ (15 : RegNum) ∈ ([0, 15, 1, 14] : List RegNum) ∧
      (15 : RegNum) ∈ ([0, 1, 15, 14] : List RegNum) ∧ (15 : RegNum) ∈ ([0, 1, 14, 15] : List RegNum)) := by decide

theorem witness_CompletesExactlyWhenWellFormed : ∃ t, exec (.smlsld .eq true 0 14 0 14) adding = .next t ∧
    (t.pc == 0x8004) = true := exists_next (by decide +kernel)

/-- A word for each of the reasons that depend on the word; the last one has both register faults, and R15 comes first. -/
theorem witness_RefusalReasons_words : [(0xF6110F12, Refusal.unconditionalSpace), (0xE1A00000, .notInOpcodeTable),
      (0xE61F0F12, .unpredictableR15), (0xE7444211, .unpredictableRdHiRdLo), (0xE74FF211, .unpredictableR15)].all
    (fun p => (start core6 [] (flagsOf 0 false 0) p.1).fetchWord == some p.1 &&
      refusal (start core6 [] (flagsOf 0 false 0) p.1) == some p.2) = true ∧ 6 ≤ core6.archVersion := by decide +kernel

theorem witness_RefusalReasons_fetch : ({ adding with pc := 0x8002 } : State).pc.toNat ≠ adding.endPc ∧
    ({ adding with pc := 0x8002 } : State).fetchWord = none := by decide +kernel

/-- A core of version 5, the greatest below 6. -/
def older (w : Word) : State := start { core6 with archVersion := 5 } [] (flagsOf 0 false 0) w

theorem witness_OlderCoresRefuseEveryWord :
    ((older 0xE6110F12).fetchWord = some 0xE6110F12 ∧ (older 0xE6110F12).cfg.archVersion < 6 ∧
      (0xE6110F12 : Word).extractLsb' 28 4 ≠ 15 ∧ refusal (older 0xE6110F12) = some .notInOpcodeTable) ∧
    ((older 0xF6110F12).fetchWord = some 0xF6110F12 ∧ (0xF6110F12 : Word).extractLsb' 28 4 = 15 ∧
      refusal (older 0xF6110F12) = some .unconditionalSpace) := by decide +kernel

theorem witness_StepRunsTheDecodedInstruction :
    adding.entryPc.toNat ≤ adding.pc.toNat ∧ adding.pc.toNat < adding.endPc ∧ adding.pc.toNat % 4 = 0 ∧
    6 ≤ adding.cfg.archVersion ∧ adding.mem.readByte adding.pc.toNat = some 0x12 ∧
    adding.mem.readByte (adding.pc.toNat + 1) = some 0x0F ∧ adding.mem.readByte (adding.pc.toNat + 2) = some 0x11 ∧
    adding.mem.readByte (adding.pc.toNat + 3) = some 0xE6 ∧
    decode (0xE6#8 ++ 0x11#8 ++ 0x0F#8 ++ 0x12#8) = .ok (.sadd16 .al 0 1 2) := by decide +kernel

theorem witness_StepRunsTheDecodedInstruction_big_endian :
    addingBig.entryPc.toNat ≤ addingBig.pc.toNat ∧ addingBig.pc.toNat < addingBig.endPc ∧ addingBig.pc.toNat % 4 = 0 ∧
    6 ≤ addingBig.cfg.archVersion ∧ addingBig.mem.readByte addingBig.pc.toNat = some 0xE6 ∧
    addingBig.mem.readByte (addingBig.pc.toNat + 1) = some 0x11 ∧
    addingBig.mem.readByte (addingBig.pc.toNat + 2) = some 0x0F ∧
    addingBig.mem.readByte (addingBig.pc.toNat + 3) = some 0x12 ∧ addingBig.cfg.fetchBigEndian = true := by decide +kernel

theorem witness_StepWrapper_no_instruction :
    ((start core6 [] (flagsOf 0 false 0) 0xF0000000).fetchWord = some 0xF0000000 ∧
      (0xF0000000 : Word).extractLsb' 28 4 = 15) ∧
    ((start core6 [] (flagsOf 0 false 0) 0xE1A00000).fetchWord = some 0xE1A00000 ∧
      opcodeTable.all (fun r => !r.matchesWord 0xE1A00000) = true) ∧ 6 ≤ core6.archVersion := by decide +kernel

/-- The four ends of an instruction word: R15 in a register field, equal destinations, a failed condition, a passed one. -/
theorem witness_StepWrapper_instruction :
    (decode 0x061F0F12 = .ok (.sadd16 .eq 0 15 2) ∧ 15 ∈ Instr.registers (.sadd16 .eq 0 15 2)) ∧
    (decode 0xE7444211 = .ok (.smlald .al false 4 4 1 2) ∧ Instr.destinations (.smlald .al false 4 4 1 2) = [4, 4] ∧
      15 ∉ Instr.registers (.smlald .al false 4 4 1 2)) ∧
    (decode 0x16110F12 = .ok (.sadd16 .ne 0 1 2) ∧ conditionPassed .ne adding.cpsr = false) ∧
    (decode 0x06110F12 = .ok (.sadd16 .eq 0 1 2) ∧ conditionPassed .eq adding.cpsr = true) := by decide +kernel

theorem witness_FailedConditionOnlyAdvances : Instr.wellFormed (.smlald .ne false 0 14 1 2) = true ∧
    conditionPassed (Instr.cond (.smlald .ne false 0 14 1 2)) adding.cpsr = false := by decide +kernel

theorem witness_FetchByteOrder : adding.cfg.fetchBigEndian = false ∧ adding.fetchWord = some 0xE6110F12 ∧
    addingBig.cfg.fetchBigEndian = true ∧ addingBig.fetchWord = some 0xE6110F12 := by decide +kernel

theorem witness_FetchByteOrder_next : ∃ t, exec (.sadd16 .al 0 1 2) addingBig = .next t ∧ (t.pc == 0x8004) = true :=
  exists_next (by decide +kernel)

theorem witness_FetchByteOrder_refused : exec (.rev .al 0 15) adding = .refused .unpredictableR15 := rfl

/-- Below the text, unaligned, beyond its end, the last word of it, and its end: `adding` occupies 0x8000 to 0x8003. -/
theorem witness_FetchBounds :
    refusal { adding with pc := 0x7FFC } = some .fetchOutOfProgram ∧
    refusal { adding with pc := 0x8002 } = some .fetchOutOfProgram ∧
    refusal { adding with pc := 0x8008 } = some .fetchOutOfProgram ∧
    (adding.InRun ∧ adding.pc.toNat ≠ adding.endPc) ∧ ({ adding with pc := 0x8004 } : State).pc.toNat = adding.endPc := by
  decide +kernel

theorem test_step_end_of_run : step { adding with pc := 0x8004 } = .fault .endOfRun := rfl

theorem witness_PcAdvancesByFourAndIsNotRead : ∃ t, exec (.sadd16 .al 0 1 2) { adding with pc := 0xFFFFFFFC } = .next t ∧
    (t.pc == 0) = true := exists_next (by decide +kernel)

theorem witness_OnlyDestinationsAreWritten : (∃ t, exec (.smlald .al true 0 13 1 2) adding = .next t ∧ (t.pc == 0x8004) = true) ∧
    regNum 14 ∉ Instr.destinations (.smlald .al true 0 13 1 2) ∧ regNum 1 ∉ Instr.destinations (.smlald .al true 0 13 1 2) :=
  ⟨exists_next (by decide +kernel), by decide⟩

/-- Another state, with another pc and R14, that agrees on the registers named. -/
theorem witness_OnlyNamedRegistersAreRead :
    (∃ t, exec (.sadd16 .al 0 1 2) adding = .next t ∧ (t.cpsr.ge == 0b1100) = true) ∧
    (let u : State := { adding with pc := 0x100, regs := adding.regs.set 14 7 }
     u.cpsr = adding.cpsr ∧ u.cfg = adding.cfg ∧ u.regs[14] ≠ adding.regs[14] ∧
      ∀ r : GPR, regNum r ∈ Instr.registers (.sadd16 .al 0 1 2) → u.regs[r] = adding.regs[r]) :=
  ⟨exists_next (by decide +kernel), by decide +kernel⟩

/-- The state with the two readings of `Q_DUAL_SUB`, an accumulator at its least value and a positive product to subtract. -/
def overflowing (q : QDualSub) : State :=
  start (core q .wide64 .twoPowField) [(1, 0x00010000), (2, 0x00010000), (3, 0x80000000), (5, 0x80000000)] (flagsOf 0 false 0b0110)
    0xE7003251

theorem witness_FlagWriters_ge : ∃ t, exec (.qadd16 .al 0 1 2) adding = .next t ∧ (t.cpsr.ge == 0b1001) = true :=
  exists_next (by decide +kernel)

theorem witness_FlagWriters_q : (∃ t, exec (.smlsld .al false 4 5 1 2) (overflowing .armArm) = .next t ∧ (!t.cpsr.q) = true) ∧
    (∃ t, exec (.smlsd .al false 0 1 2 3) (overflowing .sourceLiteral) = .next t ∧ (!t.cpsr.q) = true) ∧
    (∃ t, exec (.usat .al 0 31 1 .lsl 0) { adding with cpsr := flagsOf 0 true 0 } = .next t ∧ t.cpsr.q = true) :=
  ⟨exists_next (by decide +kernel), exists_next (by decide +kernel), exists_next (by decide +kernel)⟩

theorem witness_GeFlagsWrittenWholeAndReadBySelOnly :
    (∃ t, exec (.usubaddx .al 0 1 2) adding = .next t ∧ (t.cpsr.ge.getLsbD 3 == t.cpsr.ge.getLsbD 2) = true) ∧
    (∃ t, exec (.sel .al 0 1 2) adding = .next t ∧ (t.cpsr.ge == 0b1001) = true) ∧ Mnemonic.usubaddx ∈ geWriters ∧
    Mnemonic.sel ∉ geWriters ∧ conditionPassed .al adding.cpsr = true :=
  ⟨exists_next (by decide +kernel), exists_next (by decide +kernel), by decide +kernel⟩

theorem witness_QIsStickyAndUnread :
    (∃ t, exec (.ssat .al 0 0 1 .lsl 0) adding = .next t ∧ t.cpsr.q = true) ∧ adding.cpsr.q = false ∧
    (∃ t, runSteps 2 minimum = .next t ∧ t.cpsr.q = true) ∧ minimum.cpsr.q = true :=
  ⟨exists_next (by decide +kernel), by decide +kernel, exists_next (by decide +kernel), by decide +kernel⟩

theorem witness_ConditionFlagsNeverChangeInARun : ∃ t, runSteps 2 minimum = .next t ∧ (t.cpsr.z && t.cpsr.v) = true :=
  exists_next (by decide +kernel)

theorem witness_InstructionMemoryIsReadOnly : ∃ t, runSteps 2 minimum = .next t ∧ (t.pc.toNat == t.endPc) = true :=
  exists_next (by decide +kernel)

theorem witness_InRunIsKept : minimum.InRun ∧ ∃ t, step minimum = .next t ∧ (t.pc == 0x8004) = true :=
  ⟨by decide +kernel, exists_next (by decide +kernel)⟩

/-- A run that reaches its end, a run refused at its second word, and a run of no word. -/
theorem witness_RunEndsAtEndPcOrIsRefused : minimum.InRun ∧ minimum.remaining = 2 ∧
    (let s := State.launch core6 (regsOf []) (flagsOf 0 false 0) 0x8000 [0xE6110F12, 0xE61F0F12]
     s.InRun ∧ 1 < s.remaining ∧ nextWith (runSteps 1 s) (fun t => refusal t == some .unpredictableR15) = true) ∧
    State.reset.remaining = 0 := by decide +kernel

/-- The greatest END_PC of R6, with one word and with none. -/
theorem witness_LaunchPlacesTheProgram :
    ((0xFFFFFFF8 : Word).toNat % 4 = 0 ∧ (0xFFFFFFF8 : Word).toNat + 4 * [(0xE6110F12 : Word)].length ≤ 0xFFFFFFFC ∧
      0 < [(0xE6110F12 : Word)].length) ∧
    (0xFFFFFFFC : Word).toNat % 4 = 0 ∧ (0xFFFFFFFC : Word).toNat + 4 * ([] : List Word).length ≤ 0xFFFFFFFC ∧
    (let s := State.launch core6 (regsOf []) (flagsOf 0 false 0) 0xFFFFFFF8 [0xE6110F12]
     s.mem.readByte 0xFFFFFFF7 = none ∧ s.mem.readByte 0xFFFFFFFB = some 0xE6 ∧ s.mem.readByte 0xFFFFFFFC = none) := by
  decide +kernel

/-- At END_PC at the highest address admitted, over a word of a program, and at reset; the word decodes. -/
theorem witness_PlacedWordRunsNext :
    (let s := State.launch core6 (regsOf []) (flagsOf 0 false 0) 0xFFFFFFF8 []
     s.InRun ∧ s.pc.toNat ≤ 0xFFFFFFF8 ∧ (s.withFetchWord 32 0xE6110F12).fetchWord = some 0xE6110F12) ∧
    (minimum.InRun ∧ minimum.pc.toNat ≤ 0xFFFFFFF8 ∧ (minimum.withFetchWord 32 0xE6BF0F31).fetchWord = some 0xE6BF0F31 ∧
      (minimum.withFetchWord 32 0xE6BF0F31).endPc = minimum.endPc) ∧
    (State.reset.InRun ∧ 6 ≤ State.reset.cfg.archVersion ∧ decode 0xE6BF0F31 = .ok (.rev .al 0 1)) := by decide +kernel

theorem witness_Usub8ThenSelIsUnsignedMinimum : ((0 : GPR) ≠ 1 ∧ (0 : GPR) ≠ 14) ∧
    ∃ t, runSteps 2 minimum = .next t ∧ (t.regs[0] == 0x12BC5678 && t.cpsr.ge == 0b0100) = true :=
  ⟨by decide, exists_next (by decide +kernel)⟩

theorem witness_SaturatedLanesAreClamped : conditionPassed .eq adding.cpsr = true := by decide

theorem witness_HalvingFitsItsLane : conditionPassed .ls adding.cpsr = true := by decide

theorem witness_HalfwordProductsAreExact : bottomProduct true 0x80008000 0x80008000 = 2 ^ 30 ∧
    topProduct true 0x00028000 0x7FFF8000 = -65536 := by decide +kernel

theorem witness_SmuadOverflowsOnlyOnFourMinima : conditionPassed .al adding.cpsr = true ∧ adding.cpsr.q = false ∧
    ∃ t, exec (.smuad .al true 0 3 3) { adding with regs := adding.regs.set 3 0x80008000 } = .next t ∧ t.cpsr.q = true :=
  ⟨by decide, by decide, exists_next (by decide +kernel)⟩

theorem witness_SmusdNeverOverflows : conditionPassed .ge adding.cpsr = true := by decide

theorem witness_QDualSubDecidesWhichSetsQ : ((4 : GPR) ≠ 5) ∧ conditionPassed .al (overflowing .armArm).cpsr = true ∧
    (overflowing .armArm).cpsr.q = false ∧ (overflowing .armArm).cfg.qDualSub = .armArm ∧
    (overflowing .sourceLiteral).cfg.qDualSub = .sourceLiteral ∧
    (∃ t, exec (.smlsd .al false 0 1 2 3) (overflowing .armArm) = .next t ∧ t.cpsr.q = true) ∧
    (∃ t, exec (.smlsld .al false 4 5 1 2) (overflowing .sourceLiteral) = .next t ∧ t.cpsr.q = true) :=
  ⟨by decide, by decide, by decide, rfl, rfl, exists_next (by decide +kernel), exists_next (by decide +kernel)⟩

theorem witness_SmmlaAddsToTheTopWord : conditionPassed .le adding.cpsr = true := by decide

/-- Low words 0 and 2 ^ 31, where the clauses change, are reached. -/
theorem witness_SmmlsFormsDifferByAtMostOne : conditionPassed .al adding.cpsr = true ∧
    (0x00010000 : Word).toInt * (0x00010000 : Word).toInt % 2 ^ 32 = 0 ∧
    (0x00010000 : Word).toInt * (0x00008000 : Word).toInt % 2 ^ 32 = 2 ^ 31 := by decide +kernel

theorem witness_SsatResultInRange : conditionPassed .vc adding.cpsr = true ∧ adding.cpsr.q = false ∧
    (∃ t, exec (.ssat .al 0 31 1 .asr 0) adding = .next t ∧ (!t.cpsr.q && t.regs[0] == 0) = true) :=
  ⟨by decide, by decide, exists_next (by decide +kernel)⟩

/-- A negative operand, a field of 0, and both values of `USAT_BOUND`. -/
theorem witness_UsatClampsNegativesToZero : conditionPassed .pl adding.cpsr = true ∧ adding.cpsr.q = false ∧
    (satOperand .lsl 1 0x7FFF8000).msb = true ∧ adding.cfg.usatBound = .twoPowField ∧
    (core .armArm .wide64 .twoPowFieldPlus1).usatBound = .twoPowFieldPlus1 ∧
    (∃ t, exec (.usat .al 0 0 1 .lsl 1) adding = .next t ∧ (t.cpsr.q && t.regs[0] == 0) = true) :=
  ⟨by decide, by decide, by decide +kernel, rfl, rfl, exists_next (by decide +kernel)⟩

theorem witness_AbsoluteDifferencesSymmetricAndBounded : conditionPassed .cc adding.cpsr = true := by decide

theorem witness_ReversingTwiceRestores : conditionPassed .al adding.cpsr = true := by decide

theorem witness_PkhtbZeroShiftCopiesTheSign : conditionPassed .eq adding.cpsr = true := by decide

end Sys2Proof.Tests
end

/-! ## What an instruction writes, said once for all 69

Every statement of the state family is a consequence of `exists_performs`: an instruction that completes writes an `Update`
under the wrapper of R52, and the update depends on nothing but what the instruction may see. -/

namespace Sys2Proof.Machine

/-- What the body of an instruction writes, with one destination (R22) or two (R30). -/
structure Update where
  /-- The registers written and their values. -/
  regs : List (GPR × Word)
  /-- `GE[3:0]`, written whole or not at all (R25). -/
  ge : Option (BitVec 4) := none
  /-- Q is set; it is never cleared (R26). -/
  setQ : Bool := false

/-- An update is written to the state. -/
def State.write (s : State) (w : Update) : State :=
  { s with
    regs := w.regs.foldl (fun v p => v.set p.1 p.2) s.regs
    cpsr := { s.cpsr with q := s.cpsr.q || w.setQ, ge := w.ge.getD s.cpsr.ge } }

theorem State.write_cons (s : State) (d : GPR) (v : Word) (ps : List (GPR × Word)) (g : Option (BitVec 4)) (q : Bool) :
    s.write ⟨(d, v) :: ps, g, q⟩ = (s.setReg d v).write ⟨ps, g, q⟩ := rfl

/-- An effect is the update of its one destination. -/
theorem State.apply_eq_write (s : State) (d : GPR) (e : Effect) :
    s.apply d e = s.write ⟨[(d, e.value)], e.ge, e.setQ⟩ := by
  rcases e with ⟨v, _ | g, q⟩ <;> rfl

/-- A register that is not in the update keeps its value. -/
theorem State.reg_write_of_not_mem (s : State) {w : Update} {r : GPR} (h : r ∉ w.regs.map Prod.fst) :
    (s.write w).reg r = s.reg r := by
  obtain ⟨ps, g, q⟩ := w
  induction ps generalizing s with
  | nil => rfl
  | cons p ps ih =>
    obtain ⟨d, v⟩ := p
    simp only [List.map_cons, List.mem_cons, not_or] at h
    rw [State.write_cons, ih _ h.2, State.reg_setReg_ne _ _ h.1]

/-- One update leaves a register with one value in any two states that agree on it. -/
theorem State.reg_write_congr {s u : State} (w : Update) {r : GPR} (h : u.reg r = s.reg r) :
    (u.write w).reg r = (s.write w).reg r := by
  obtain ⟨ps, g, q⟩ := w
  induction ps generalizing s u with
  | nil => exact h
  | cons p ps ih =>
    obtain ⟨d, v⟩ := p
    rw [State.write_cons, State.write_cons]
    refine ih ?_
    by_cases hr : r = d
    · subst hr; simp
    · rw [State.reg_setReg_ne _ _ hr, State.reg_setReg_ne _ _ hr, h]

/-! ### The wrapper around an update: `State.retired`, the end of R52 -/

theorem State.retired_passed {s : State} {c : Cond} (h : conditionPassed c s.cpsr = true) (t : State) :
    s.retired c t = { t with pc := s.pc + 4 } := by
  simp [State.retired, h]

theorem State.retired_failed {s : State} {c : Cond} (h : conditionPassed c s.cpsr = false) (t : State) :
    s.retired c t = { s with pc := s.pc + 4 } := by
  simp [State.retired, h]

@[simp] theorem State.retired_pc (s t : State) (c : Cond) : (s.retired c t).pc = s.pc + 4 := rfl

section
variable (s : State) (c : Cond) (w : Update)

@[simp] theorem State.retired_write_mem : (s.retired c (s.write w)).mem = s.mem := by
  unfold State.retired; split <;> rfl
@[simp] theorem State.retired_write_entryPc : (s.retired c (s.write w)).entryPc = s.entryPc := by
  unfold State.retired; split <;> rfl
@[simp] theorem State.retired_write_cfg : (s.retired c (s.write w)).cfg = s.cfg := by
  unfold State.retired; split <;> rfl
@[simp] theorem State.retired_write_n : (s.retired c (s.write w)).cpsr.n = s.cpsr.n := by
  unfold State.retired; split <;> rfl
@[simp] theorem State.retired_write_z : (s.retired c (s.write w)).cpsr.z = s.cpsr.z := by
  unfold State.retired; split <;> rfl
@[simp] theorem State.retired_write_c : (s.retired c (s.write w)).cpsr.c = s.cpsr.c := by
  unfold State.retired; split <;> rfl
@[simp] theorem State.retired_write_v : (s.retired c (s.write w)).cpsr.v = s.cpsr.v := by
  unfold State.retired; split <;> rfl
@[simp] theorem State.retired_write_q :
    (s.retired c (s.write w)).cpsr.q = (s.cpsr.q || (conditionPassed c s.cpsr && w.setQ)) := by
  unfold State.retired; split <;> simp [State.write, *]
@[simp] theorem State.retired_write_ge :
    (s.retired c (s.write w)).cpsr.ge = if conditionPassed c s.cpsr then w.ge.getD s.cpsr.ge else s.cpsr.ge := by
  unfold State.retired; split <;> rfl

end

theorem State.reg_retired_write_of_not_mem (s : State) (c : Cond) {w : Update} {r : GPR} (h : r ∉ w.regs.map Prod.fst) :
    (s.retired c (s.write w)).reg r = s.reg r := by
  cases hc : conditionPassed c s.cpsr with
  | true => rw [State.retired_passed hc]; exact s.reg_write_of_not_mem h
  | false => rw [State.retired_failed hc]; rfl

theorem complete_eq_retired {c : Cond} {s : State} {body : State → State} (h : (body s).pc = s.pc) :
    complete c s body = .next (s.retired c (body s)) := by
  unfold complete State.retired State.advance
  split <;> simp [h]

/-- A condition reads N, Z, C and V only (R29). -/
theorem conditionPassed_congr {f g : Cpsr} (hn : f.n = g.n) (hz : f.z = g.z) (hc : f.c = g.c) (hv : f.v = g.v) (c : Cond) :
    conditionPassed c f = conditionPassed c g := by
  simp only [conditionPassed, hn, hz, hc, hv]

/-! ### What an instruction may see and may write -/

/-- The two states look the same to the body of `i`: in the parameters, in the registers it names, and to SEL in GE. -/
structure SeenAlike (i : Instr) (s u : State) : Prop where
  cfg : u.cfg = s.cfg
  ge : i.mnemonic = .sel → u.cpsr.ge = s.cpsr.ge
  reg : ∀ r, regNum r ∈ i.registers → u.reg r = s.reg r

/-- The GE writers with 16-bit lanes (R132 to R135, R162 to R165). -/
def halfwordGeWriters : List Mnemonic :=
  [.sadd16, .saddsubx, .ssubaddx, .ssub16, .uadd16, .uaddsubx, .usubaddx, .usub16]

/-- A lane's pair of flags holds one value, in both pairs (R25). -/
def PairedGe (g : BitVec 4) : Prop := g.getLsbD 3 = g.getLsbD 2 ∧ g.getLsbD 1 = g.getLsbD 0

theorem gePairs_paired (top bottom : Bool) : PairedGe (gePairs top bottom) := by
  cases top <;> cases bottom <;> exact ⟨rfl, rfl⟩

/-- The flags `m` writes are those R28 lets it write, under the reading `q` of R209. -/
structure WritesOwnFlags (m : Mnemonic) (q : QDualSub) (ge : Option (BitVec 4)) (setQ : Bool) : Prop where
  ge_isSome : ge.isSome = decide (m ∈ geWriters)
  ge_paired : m ∈ halfwordGeWriters → ∀ g ∈ ge, PairedGe g
  setQ_mem : setQ = true → m ∈ qWriters q

/-- An instruction that writes no flag. -/
theorem WritesOwnFlags.none {m : Mnemonic} {q : QDualSub} (hm : decide (m ∈ geWriters) = false) :
    WritesOwnFlags m q .none false :=
  ⟨hm.symm, fun _ _ h => (Option.not_mem_none _ h).elim, fun h => nomatch h⟩

/-- An instruction that writes a pair of GE flags per halfword. -/
theorem WritesOwnFlags.pairs {m : Mnemonic} {q : QDualSub} (top bottom : Bool) (hm : decide (m ∈ geWriters) = true) :
    WritesOwnFlags m q (some (gePairs top bottom)) false :=
  ⟨hm.symm, fun _ _ h => Option.some.inj h ▸ gePairs_paired top bottom, fun h => nomatch h⟩

/-- An instruction that writes a GE flag per byte. -/
theorem WritesOwnFlags.bits {m : Mnemonic} {q : QDualSub} (g : BitVec 4) (hm : decide (m ∈ geWriters) = true)
    (hh : decide (m ∈ halfwordGeWriters) = false) : WritesOwnFlags m q (some g) false :=
  ⟨hm.symm, fun h => absurd h (of_decide_eq_false hh), fun h => nomatch h⟩

/-- An instruction that sets Q at most where `qWriters` lists it. -/
theorem WritesOwnFlags.sticky {m : Mnemonic} {q : QDualSub} {b : Bool} (hm : decide (m ∈ geWriters) = false)
    (hq : b = true → m ∈ qWriters q) : WritesOwnFlags m q .none b :=
  ⟨hm.symm, fun _ _ h => (Option.not_mem_none _ h).elim, hq⟩

/-- `i` does nothing but write the update `w` under R52: to its destinations, which differ (R203), and to its own flags, with
values that depend on what it may see. -/
structure Performs (i : Instr) (w : State → Update) : Prop where
  exec_eq : ∀ s, exec i s = .next (s.retired i.cond (s.write (w s)))
  reads : ∀ {s u}, SeenAlike i s u → w u = w s
  destinations : ∀ s, (w s).regs.map (fun p => regNum p.1) = i.destinations
  nodup : i.destinations.Nodup
  flags : ∀ s, WritesOwnFlags i.mnemonic s.cfg.qDualSub (w s).ge (w s).setQ

/-- An instruction with one destination, whose body is an effect. -/
theorem Performs.of_effect {i : Instr} {d : GPR} {e : State → Effect}
    (hex : ∀ s, exec i s = complete i.cond s fun u => u.apply d (e u)) (hd : i.destinations = [regNum d])
    (hreads : ∀ {s u}, SeenAlike i s u → e u = e s)
    (hflags : ∀ s, WritesOwnFlags i.mnemonic s.cfg.qDualSub (e s).ge (e s).setQ) :
    Performs i fun s => ⟨[(d, (e s).value)], (e s).ge, (e s).setQ⟩ where
  exec_eq s := by rw [hex, complete_eq_retired (State.apply_pc ..), State.apply_eq_write]
  reads h := by simp only [hreads h]
  destinations s := by simp [hd]
  nodup := by simp [hd]
  flags := hflags

section
variable {i : Instr} {rd ra rb rn : RegNum} {s t : State}

theorem exists_performs_of_unary {f : State → Word → Effect} (h : exec i s = .next t)
    (hex : ∀ s, exec i s = unary i.cond rd ra s (f s)) (hd : i.destinations = [rd]) (hr : i.registers = [rd, ra])
    (hreads : ∀ {s u}, SeenAlike i s u → f u = f s)
    (hflags : ∀ s x, WritesOwnFlags i.mnemonic s.cfg.qDualSub (f s x).ge (f s x).setQ) : ∃ w, Performs i w := by
  obtain ⟨d, a, rfl, rfl, -⟩ := unary_eq_next.1 ((hex s).symm.trans h)
  refine ⟨_, .of_effect (d := d) (e := fun u => f u (u.reg a)) (fun u => by rw [hex, unary_regNum]; rfl) hd
    (fun hs => ?_) fun _ => hflags ..⟩
  rw [hreads hs, hs.reg a (by simp [hr])]

theorem exists_performs_of_binary {f : State → Word → Word → Effect} (h : exec i s = .next t)
    (hex : ∀ s, exec i s = binary i.cond rd ra rb s (f s)) (hd : i.destinations = [rd]) (hr : i.registers = [rd, ra, rb])
    (hreads : ∀ {s u}, SeenAlike i s u → f u = f s)
    (hflags : ∀ s x y, WritesOwnFlags i.mnemonic s.cfg.qDualSub (f s x y).ge (f s x y).setQ) : ∃ w, Performs i w := by
  obtain ⟨d, a, b, rfl, rfl, rfl, -⟩ := binary_eq_next.1 ((hex s).symm.trans h)
  refine ⟨_, .of_effect (d := d) (e := fun u => f u (u.reg a) (u.reg b)) (fun u => by rw [hex, binary_regNum]; rfl) hd
    (fun hs => ?_) fun _ => hflags ..⟩
  rw [hreads hs, hs.reg a (by simp [hr]), hs.reg b (by simp [hr])]

theorem exists_performs_of_ternary {f : State → Word → Word → Word → Effect} (h : exec i s = .next t)
    (hex : ∀ s, exec i s = ternary i.cond rd ra rb rn s (f s)) (hd : i.destinations = [rd])
    (hr : i.registers = [rd, ra, rb, rn]) (hreads : ∀ {s u}, SeenAlike i s u → f u = f s)
    (hflags : ∀ s x y z, WritesOwnFlags i.mnemonic s.cfg.qDualSub (f s x y z).ge (f s x y z).setQ) :
    ∃ w, Performs i w := by
  obtain ⟨d, a, b, n, rfl, rfl, rfl, rfl, -⟩ := ternary_eq_next.1 ((hex s).symm.trans h)
  refine ⟨_, .of_effect (d := d) (e := fun u => f u (u.reg a) (u.reg b) (u.reg n))
    (fun u => by rw [hex, ternary_regNum]; rfl) hd (fun hs => ?_) fun _ => hflags ..⟩
  rw [hreads hs, hs.reg a (by simp [hr]), hs.reg b (by simp [hr]), hs.reg n (by simp [hr])]

/-- The update of `longBody`: both words of the 64-bit result, the low one first (R210, R211). -/
def longUpdate (lo hi m k : GPR) (f : Int → Word → Word → Int) (q : Int → Bool) (s : State) : Update :=
  let n := f (s.reg hi ++ s.reg lo : Dword).toInt (s.reg m) (s.reg k)
  ⟨[(lo, (trunc 64 n).extractLsb' 0 32), (hi, (trunc 64 n).extractLsb' 32 32)], none, q n⟩

theorem longBody_eq_write (lo hi m k : GPR) (f : Int → Word → Word → Int) (q : Int → Bool) (s : State) :
    longBody lo hi m k f q s = s.write (longUpdate lo hi m k f q s) := rfl

theorem exists_performs_of_longAccumulate {rdLo rdHi : RegNum} {f : Int → Word → Word → Int} {q : State → Int → Bool}
    (h : exec i s = .next t) (hex : ∀ s, exec i s = longAccumulate i.cond rdLo rdHi ra rb s f (q s))
    (hd : i.destinations = [rdLo, rdHi]) (hr : i.registers = [rdLo, rdHi, ra, rb])
    (hreads : ∀ {s u}, SeenAlike i s u → q u = q s)
    (hflags : ∀ s n, WritesOwnFlags i.mnemonic s.cfg.qDualSub none (q s n)) : ∃ w, Performs i w := by
  obtain ⟨lo, hi, a, b, rfl, rfl, rfl, rfl, hne, -⟩ := longAccumulate_eq_next.1 ((hex s).symm.trans h)
  refine ⟨fun u => longUpdate lo hi a b f (q u) u, fun u => ?_, fun hs => ?_, fun u => hd.symm, ?_, fun u => hflags u _⟩
  · rw [hex, longAccumulate_regNum _ _ _ _ _ _ hne, complete_eq_retired rfl, longBody_eq_write]
  · simp only [longUpdate, hreads hs, hs.reg lo (by simp [hr]), hs.reg hi (by simp [hr]), hs.reg a (by simp [hr]),
      hs.reg b (by simp [hr])]
  · simpa [hd] using hne

end

/-- Every instruction that completes performs an update. The 69 are grouped by their number of operands and by the flags they
write; `unfold exec` exposes the operation that is an instruction's meaning, and `rfl` reads its effect off it. -/
theorem exists_performs {i : Instr} {s t : State} (h : exec i s = .next t) : ∃ w, Performs i w := by
  cases i with
  | sxtb16 | sxtb | sxth | uxtb16 | uxtb | uxth | rev | rev16 | revsh =>
    apply exists_performs_of_unary h (hd := rfl) (hr := rfl)
    · intro; unfold exec; exact rfl
    · intros; rfl
    · exact fun _ _ => .none rfl
  | sxtab16 | sxtab | sxtah | uxtab16 | uxtab | uxtah | smusd | smmul | usad8 | pkhbt | pkhtb
  | qadd16 | qaddsubx | qsubaddx | qsub16 | qadd8 | qsub8 | shadd16 | shaddsubx | shsubaddx | shsub16 | shadd8 | shsub8
  | uqadd16 | uqaddsubx | uqsubaddx | uqsub16 | uqadd8 | uqsub8
  | uhadd16 | uhaddsubx | uhsubaddx | uhsub16 | uhadd8 | uhsub8 =>
    apply exists_performs_of_binary h (hd := rfl) (hr := rfl)
    · intro; unfold exec; exact rfl
    · intros; rfl
    · exact fun _ _ _ => .none rfl
  | smmla | usada8 =>
    apply exists_performs_of_ternary h (hd := rfl) (hr := rfl)
    · intro; unfold exec; exact rfl
    · intros; rfl
    · exact fun _ _ _ _ => .none rfl
  | smmls =>
    apply exists_performs_of_ternary h (hd := rfl) (hr := rfl)
    · intro; unfold exec; exact rfl
    · intro _ _ hs; rw [hs.cfg]
    · exact fun _ _ _ _ => .none rfl
  | sel =>
    apply exists_performs_of_binary h (hd := rfl) (hr := rfl)
    · intro; unfold exec; exact rfl
    · intro _ _ hs; rw [hs.ge rfl]
    · exact fun _ _ _ => .none rfl
  | sadd16 | saddsubx | ssubaddx | ssub16 | uadd16 | uaddsubx | usubaddx | usub16 =>
    apply exists_performs_of_binary h (hd := rfl) (hr := rfl)
    · intro; unfold exec; exact rfl
    · intros; rfl
    · exact fun _ _ _ => .pairs _ _ rfl
  | sadd8 | ssub8 | uadd8 | usub8 =>
    apply exists_performs_of_binary h (hd := rfl) (hr := rfl)
    · intro; unfold exec; exact rfl
    · intros; rfl
    · exact fun _ _ _ => .bits _ rfl rfl
  | ssat | ssat16 =>
    apply exists_performs_of_unary h (hd := rfl) (hr := rfl)
    · intro; unfold exec; exact rfl
    · intros; rfl
    · exact fun _ _ => .sticky rfl fun _ => by simp [Instr.mnemonic, qWriters]
  | usat | usat16 =>
    apply exists_performs_of_unary h (hd := rfl) (hr := rfl)
    · intro; unfold exec; exact rfl
    · intro _ _ hs; rw [hs.cfg]
    · exact fun _ _ => .sticky rfl fun _ => by simp [Instr.mnemonic, qWriters]
  | smuad =>
    apply exists_performs_of_binary h (hd := rfl) (hr := rfl)
    · intro; unfold exec; exact rfl
    · intros; rfl
    · exact fun _ _ _ => .sticky rfl fun _ => by simp [Instr.mnemonic, qWriters]
  | smlad =>
    apply exists_performs_of_ternary h (hd := rfl) (hr := rfl)
    · intro; unfold exec; exact rfl
    · intros; rfl
    · exact fun _ _ _ _ => .sticky rfl fun _ => by simp [Instr.mnemonic, qWriters]
  | smlsd =>
    apply exists_performs_of_ternary h (hd := rfl) (hr := rfl)
    · intro; unfold exec; exact rfl
    · intro _ _ hs; rw [hs.cfg]
    · refine fun s _ _ _ => .sticky rfl fun hq => ?_
      have hform : s.cfg.qDualSub = .armArm := by simpa using (Bool.and_eq_true_iff.1 hq).1
      simp [Instr.mnemonic, qWriters, hform]
  | smlald =>
    apply exists_performs_of_longAccumulate h (hd := rfl) (hr := rfl)
    · intro; unfold exec; exact rfl
    · intros; rfl
    · exact fun _ _ => .none rfl
  | smlsld =>
    apply exists_performs_of_longAccumulate h (hd := rfl) (hr := rfl)
    · intro; unfold exec; exact rfl
    · intro _ _ hs; rw [hs.cfg]
    · refine fun s _ => .sticky rfl fun hq => ?_
      have hform : s.cfg.qDualSub = .sourceLiteral := by simpa using (Bool.and_eq_true_iff.1 hq).1
      simp [Instr.mnemonic, qWriters, hform]

/-- All that an instruction can do when it answers a next state. -/
theorem exec_eq_next {i : Instr} {s t : State} (h : exec i s = .next t) :
    ∃ w, Performs i w ∧ t = s.retired i.cond (s.write (w s)) := by
  obtain ⟨w, hw⟩ := exists_performs h
  exact ⟨w, hw, by simpa [hw.exec_eq s] using h.symm⟩

end Sys2Proof.Machine

/-! ## The statements about one instruction -/

namespace Sys2Proof.Machine

/-- From a state that looks like `s` an instruction writes what it writes from `s`. -/
theorem Performs.exec_eq_of_seenAlike {i : Instr} {w : State → Update} (hw : Performs i w) {s u : State}
    (h : SeenAlike i s u) : exec i u = .next (u.retired i.cond (u.write (w s))) := by
  rw [hw.exec_eq, hw.reads h]

/-- Settles O34: what an instruction writes is not read from `pc`. -/
theorem pcAdvancesByFourAndIsNotRead : Obligations.PcAdvancesByFourAndIsNotRead := by
  intro i s t p h
  obtain ⟨w, hw, rfl⟩ := exec_eq_next h
  refine ⟨?_, fun hp => ?_, fun hp => ?_, ?_⟩
  · simp [BitVec.ofNat_add]
  · simp [hp]
  · rw [State.retired_pc, BitVec.toNat_add]
    change (s.pc.toNat + 4) % 2 ^ 32 % 4 = 0
    omega
  · rw [hw.exec_eq_of_seenAlike (s := s) (u := { s with pc := p }) ⟨rfl, fun _ => rfl, fun _ _ => rfl⟩]
    cases hc : conditionPassed i.cond s.cpsr with
    | true => rw [State.retired_passed hc, State.retired_passed (s := { s with pc := p }) hc]; rfl
    | false => rw [State.retired_failed hc, State.retired_failed (s := { s with pc := p }) hc]

/-- An instruction has one destination, but for the two with a 64-bit accumulator (R22, R30). -/
theorem destinations_cases (i : Instr) :
    (∃ d, i.destinations = [d]) ∨
      (i.mnemonic = .smlald ∨ i.mnemonic = .smlsld) ∧ ∃ lo hi, i.destinations = [lo, hi] := by
  cases i with
  | smlald => exact .inr ⟨.inl rfl, _, _, rfl⟩
  | smlsld => exact .inr ⟨.inr rfl, _, _, rfl⟩
  | _ => exact .inl ⟨_, rfl⟩

/-- A register that is no destination is not in the update. -/
theorem Performs.not_mem_regs {i : Instr} {w : State → Update} (hw : Performs i w) (s : State) {r : GPR}
    (h : regNum r ∉ i.destinations) : r ∉ (w s).regs.map Prod.fst := by
  intro hr
  obtain ⟨p, hp, rfl⟩ := List.mem_map.1 hr
  exact h (hw.destinations s ▸ List.mem_map_of_mem hp)

/-- Settles O35: an update has registers and flags only, and its registers are the destinations. -/
theorem onlyDestinationsAreWritten : Obligations.OnlyDestinationsAreWritten := by
  intro i s t h
  obtain ⟨w, hw, rfl⟩ := exec_eq_next h
  have hmem := State.retired_write_mem s i.cond (w s)
  refine ⟨fun r hr => ?_, fun a => by rw [hmem], hmem, State.retired_write_entryPc .., State.retired_write_cfg .., ?_⟩
  · exact s.reg_retired_write_of_not_mem i.cond (hw.not_mem_regs s hr)
  · refine (destinations_cases i).imp_right fun ⟨hm, lo, hi, hd⟩ => ⟨hm, lo, hi, hd, ?_⟩
    simpa [hd] using hw.nodup

/-- Settles O36: states that look alike get one update, and one update leaves one value in registers that agreed. -/
theorem onlyNamedRegistersAreRead : Obligations.OnlyNamedRegistersAreRead := by
  intro i s t u h hcpsr hcfg hregs
  obtain ⟨w, hw, rfl⟩ := exec_eq_next h
  have hwu : w u = w s := hw.reads ⟨hcfg, fun _ => by rw [hcpsr], hregs⟩
  refine ⟨_, hw.exec_eq u, ?_⟩
  rw [hwu]
  cases hc : conditionPassed i.cond s.cpsr with
  | true =>
    rw [State.retired_passed hc, State.retired_passed (hcpsr ▸ hc)]
    exact ⟨by simp [State.write, hcpsr], fun r hr => State.reg_write_congr (w s) (hregs r hr)⟩
  | false =>
    rw [State.retired_failed hc, State.retired_failed (hcpsr ▸ hc)]
    exact ⟨hcpsr, hregs⟩

/-- Every Q writer is one of the eight of R28, and `Q_DUAL_SUB` leaves one of the last two out (R209). -/
theorem mem_qWriters {q : QDualSub} {m : Mnemonic} (h : m ∈ qWriters q) :
    m ∈ [Mnemonic.ssat, .usat, .ssat16, .usat16, .smuad, .smlad, .smlsd, .smlsld] ∧
      (q = .armArm → m ≠ .smlsld) ∧ (q = .sourceLiteral → m ≠ .smlsd) := by
  cases q with
  | armArm | sourceLiteral => revert m; decide

/-- An instruction that is not listed leaves GE alone. -/
theorem Performs.ge_eq_none {i : Instr} {w : State → Update} (hw : Performs i w) (s : State)
    (h : i.mnemonic ∉ geWriters) : (w s).ge = none := by
  have := (hw.flags s).ge_isSome
  simpa [h] using this

/-- An instruction that is not listed leaves Q alone. -/
theorem Performs.setQ_eq_false {i : Instr} {w : State → Update} (hw : Performs i w) (s : State)
    (h : i.mnemonic ∉ qWriters s.cfg.qDualSub) : (w s).setQ = false :=
  Bool.eq_false_iff.2 fun hq => h ((hw.flags s).setQ_mem hq)

/-- Settles O37: an update has no N, Z, C or V, and an instruction that is not listed leaves GE or Q out of its own. -/
theorem flagWriters : Obligations.FlagWriters := by
  intro i s t h
  obtain ⟨w, hw, rfl⟩ := exec_eq_next h
  have hq (hi : i.mnemonic ∉ qWriters s.cfg.qDualSub) : (s.retired i.cond (s.write (w s))).cpsr.q = s.cpsr.q := by
    simp [hw.setQ_eq_false s hi]
  refine ⟨by simp, fun hi => ?_, fun hi => hq fun hm => ?_, fun hc hi => hq fun hm => ?_, fun hc hi => hq fun hm => ?_,
    fun hs => by simp [hs]⟩
  · simp [hw.ge_eq_none s hi]
  · exact hi (mem_qWriters hm).1
  · exact (mem_qWriters hm).2.1 hc hi
  · exact (mem_qWriters hm).2.2 hc hi

/-- The halfword writers are among the twelve (R25). -/
theorem mem_geWriters_of_halfword {m : Mnemonic} (h : m ∈ halfwordGeWriters) : m ∈ geWriters := by
  revert m; decide

/-- An update writes GE over whatever GE was. -/
theorem State.write_setGE (s : State) (w : Update) (g : BitVec 4) :
    (s.setGE g).write w = (s.write w).setGE (w.ge.getD g) := rfl

/-- Settles O38: the update of an instruction other than SEL is the same for every GE, and replaces it or leaves it. -/
theorem geFlagsWrittenWholeAndReadBySelOnly : Obligations.GeFlagsWrittenWholeAndReadBySelOnly := by
  intro i s t g h
  obtain ⟨w, hw, rfl⟩ := exec_eq_next h
  have hsome := (hw.flags s).ge_isSome
  refine ⟨fun hsel => ?_, fun hi hc => ?_, fun hi => by simp [hw.ge_eq_none s hi]⟩
  · rw [hw.exec_eq_of_seenAlike (s := s) (u := s.setGE g) ⟨rfl, fun hs => absurd hs hsel, fun _ _ => rfl⟩]
    cases hc : conditionPassed i.cond s.cpsr with
    | false =>
      rw [State.retired_failed hc, State.retired_failed (s := s.setGE g) hc, if_neg (by simp)]
      rfl
    | true =>
      rw [State.retired_passed hc, State.retired_passed (s := s.setGE g) hc, State.write_setGE]
      cases hge : (w s).ge with
      | none =>
        have hi : i.mnemonic ∉ geWriters := by simpa [hge] using hsome
        rw [if_neg fun h => hi h.1]; rfl
      | some g' =>
        have hi : i.mnemonic ∈ geWriters := by simpa [hge] using hsome
        rw [if_pos ⟨hi, rfl⟩]
        simp [State.setGE, State.write, hge]
  · have hmem : i.mnemonic ∈ geWriters := mem_geWriters_of_halfword hi
    obtain ⟨g', hg'⟩ := Option.isSome_iff_exists.1 (hsome.trans (decide_eq_true hmem))
    have hge : (s.retired i.cond (s.write (w s))).cpsr.ge = g' := by simp [hc, hg']
    exact hge ▸ (hw.flags s).ge_paired hi g' hg'

/-- No instruction reads Q: with Q raised it writes the same update, and Q stays raised (R26). -/
theorem exec_raiseQ {i : Instr} {s t : State} (h : exec i s = .next t) :
    exec i (s.raiseQ true) = .next (t.raiseQ true) := by
  obtain ⟨w, hw, rfl⟩ := exec_eq_next h
  rw [hw.exec_eq_of_seenAlike (s := s) (u := s.raiseQ true) ⟨rfl, fun _ => rfl, fun _ _ => rfl⟩]
  cases hc : conditionPassed i.cond s.cpsr with
  | true =>
    rw [State.retired_passed hc, State.retired_passed (s := s.raiseQ true) hc]
    simp [State.raiseQ, State.write]
  | false => rw [State.retired_failed hc, State.retired_failed (s := s.raiseQ true) hc]; rfl

/-! ## The statements about a step and a run -/

/-- A step advances `pc` and keeps the memory, `ENTRY_PC` and the parameters (R23, R48). -/
theorem step_advances_and_keeps {s t : State} (h : step s = .next t) :
    t.pc = s.pc + 4 ∧ t.mem = s.mem ∧ t.entryPc = s.entryPc ∧ t.cfg = s.cfg := by
  obtain ⟨-, -, i, -, -, hex⟩ := step_eq_next.1 h
  obtain ⟨w, -, rfl⟩ := exec_eq_next hex
  simp

/-- No step writes N, Z, C or V (R27). -/
theorem step_keeps_conditionFlags {s t : State} (h : step s = .next t) :
    t.cpsr.n = s.cpsr.n ∧ t.cpsr.z = s.cpsr.z ∧ t.cpsr.c = s.cpsr.c ∧ t.cpsr.v = s.cpsr.v := by
  obtain ⟨-, -, i, -, -, hex⟩ := step_eq_next.1 h
  exact (flagWriters i s t hex).1

/-- No step clears Q (R26). -/
theorem step_keeps_q {s t : State} (h : step s = .next t) (hq : s.cpsr.q = true) : t.cpsr.q = true := by
  obtain ⟨-, -, i, -, -, hex⟩ := step_eq_next.1 h
  obtain ⟨-, -, -, -, -, hsticky⟩ := flagWriters i s t hex
  exact hsticky hq

/-- A word is fetched only inside the program text (R42). -/
theorem fetchAdmitted_of_fetchWord {s : State} {w : Word} (h : s.fetchWord = some w) :
    s.entryPc.toNat ≤ s.pc.toNat ∧ s.pc.toNat < s.endPc ∧ s.pc.toNat % 4 = 0 := by
  have hadm : s.fetchAdmitted = true := by
    by_contra hn
    simp [State.fetchWord, hn] at h
  simpa [State.fetchAdmitted, and_assoc] using hadm

/-- A run of one step more begins with that step. -/
theorem run_succ_eq_next (M : Host.Core) {k : Nat} {s t : M.State} :
    M.run (k + 1) s = .next t ↔ ∃ u, M.step s = .next u ∧ M.run k u = .next t := by
  rw [Host.Core.run]
  cases M.step s with
  | next u => simp
  | fault | refused => simp

/-- What every step keeps, a run keeps. -/
theorem runSteps_keeps {P : State → Prop} (hstep : ∀ {s t}, step s = .next t → P s → P t) {k : Nat} {s t : State}
    (h : runSteps k s = .next t) (hs : P s) : P t := by
  induction k generalizing s with
  | zero => cases h; exact hs
  | succ k ih =>
    obtain ⟨u, hu, hrun⟩ := (run_succ_eq_next Sys2Proof.core).1 h
    exact ih hrun (hstep hu hs)

/-- Settles O39: one instruction by its update, a run as an invariant of its steps. -/
theorem qIsStickyAndUnread : Obligations.QIsStickyAndUnread :=
  ⟨fun _ _ _ h _ => exec_raiseQ h, fun _ _ _ h hq => runSteps_keeps (P := fun u => u.cpsr.q = true) step_keeps_q h hq⟩

/-- Settles O40, as an invariant of a run: the four flags are those of the start. -/
theorem conditionFlagsNeverChangeInARun : Obligations.ConditionFlagsNeverChangeInARun := by
  intro k s t h
  have hkeep : t.cpsr.n = s.cpsr.n ∧ t.cpsr.z = s.cpsr.z ∧ t.cpsr.c = s.cpsr.c ∧ t.cpsr.v = s.cpsr.v := by
    refine runSteps_keeps (P := fun u => u.cpsr.n = s.cpsr.n ∧ u.cpsr.z = s.cpsr.z ∧ u.cpsr.c = s.cpsr.c ∧
      u.cpsr.v = s.cpsr.v) (fun {u v} hu ⟨hn, hz, hc, hv⟩ => ?_) h ⟨rfl, rfl, rfl, rfl⟩
    obtain ⟨hn', hz', hc', hv'⟩ := step_keeps_conditionFlags hu
    exact ⟨hn'.trans hn, hz'.trans hz, hc'.trans hc, hv'.trans hv⟩
  obtain ⟨hn, hz, hc, hv⟩ := hkeep
  exact ⟨hn, hz, hc, hv, conditionPassed_congr hn hz hc hv⟩

/-! ### The invariant of a run -/

/-- In a state of a run the memory is in its canonical form. -/
theorem State.InRun.mem_wf {s : State} (h : s.InRun) : s.mem.wf = true := by
  obtain ⟨-, hlen, hcells, hend, -, -, -⟩ := h
  rw [Memory.wf_iff, hcells]
  refine ⟨List.pairwise_lt_range', fun c hc => ?_⟩
  have hm := List.mem_map_of_mem (f := Prod.fst) hc
  rw [hcells, List.mem_range'_1] at hm
  simp only [State.endPc, State.programLength] at hend
  omega

/-- Settles O43: the fetch was admitted, so `pc` was a word or more below `END_PC`, and the rest of the invariant is about
what no step changes. -/
theorem inRunIsKept : Obligations.InRunIsKept := by
  intro s t hs h
  obtain ⟨-, w, -, hfetch, -, -⟩ := step_eq_next.1 h
  obtain ⟨hlow, hhigh, hpc⟩ := fetchAdmitted_of_fetchWord hfetch
  obtain ⟨hpc', hmem, hentry, -⟩ := step_advances_and_keeps h
  obtain ⟨hentry4, hlen, hcells, hend, -, -, -⟩ := hs
  have hendPc : t.endPc = s.endPc := by simp only [State.endPc, State.programLength, hmem, hentry]
  have hend4 : s.endPc % 4 = 0 := by simp only [State.endPc]; omega
  have hnat : t.pc.toNat = s.pc.toNat + 4 := by
    rw [hpc', BitVec.toNat_add]
    change (s.pc.toNat + 4) % 2 ^ 32 = _
    omega
  have ht : t.InRun := by
    rw [State.InRun, hendPc, hnat, hmem, hentry]
    exact ⟨hentry4, hlen, hcells, hend, by omega, by omega, by omega⟩
  exact ⟨ht, ht.mem_wf⟩

/-- Settles O42: at reset the program is empty. -/
theorem resetIsAStateOfARun : Obligations.ResetIsAStateOfARun :=
  ⟨⟨rfl, rfl, rfl, by decide, rfl, le_rfl, le_rfl⟩, State.reset_mem_wf⟩

/-! ### The condition field -/

/-- A word with the condition field 15 is no instruction (R54). -/
theorem decode_of_field_fifteen {w : Word} (h : w.extractLsb' 28 4 = 15) : decode w = .error .unconditionalSpace := by
  have hc : Cond.ofBits (nibbleAt w 28) = none := by rw [nibbleAt, h]; rfl
  simp [decode, hc]

/-- The step of a word that the decoder rejects is refused for the decoder's reason (R303). -/
theorem step_of_decode_error {s : State} {w : Word} {e : DecodeReject} (hf : s.fetchWord = some w)
    (hd : decode w = .error e) : step s = .refused (refusalOf e) := by
  obtain ⟨-, hlt, -⟩ := fetchAdmitted_of_fetchWord hf
  have hr : s.runOver = false := by simpa [State.runOver] using hlt.ne
  simp [step, hr, hf, decodeFor, hd]

/-- Settles O18: the table as the model writes it, and the decoder's refusal of the sixteenth value as the step's. -/
theorem conditionTable : Obligations.ConditionTable := by
  refine ⟨fun f => ?_, rfl, rfl, fun s w hf hw => ?_⟩
  · exact ⟨rfl, rfl, rfl, rfl, rfl, rfl, rfl, rfl, rfl, rfl, rfl, rfl, rfl, rfl, rfl⟩
  · have hd := decode_of_field_fifteen hw
    exact ⟨hd, step_of_decode_error hf hd⟩

/-! ### The launch -/

theorem Memory.readByte_append (m n : Memory) (k : Nat) :
    Memory.readByte (m ++ n) k = (m.readByte k).or (n.readByte k) := by
  induction m with
  | nil => rfl
  | cons c m ih =>
    obtain ⟨a, b⟩ := c
    rw [List.cons_append, Memory.readByte_cons, Memory.readByte_cons, ih]
    split <;> rfl

/-- Outside its four bytes a word maps nothing. -/
theorem readByte_wordCells_of_le {big : Bool} {a k : Nat} {w : Word} (h : a + 4 ≤ k) : (wordCells big a w).readByte k = none :=
  Memory.readByte_eq_none_of_not_mem (by simp [wordCells]; omega)

/-- Byte `j` of the `k`-th word of PROGRAM, as it lies in memory (R40, R41). -/
theorem readByte_programCells (big : Bool) (a : Nat) (p : List Word) {k j : Nat} (hk : k < p.length) (hj : j < 4) :
    (programCells big a p).readByte (a + 4 * k + j) = some (storedByte big p[k] j) := by
  induction p generalizing a k with
  | nil => exact absurd hk (Nat.not_lt_zero _)
  | cons w p ih =>
    rw [programCells, Memory.readByte_append]
    cases k with
    | zero => interval_cases j <;> simp [wordCells, Memory.readByte]
    | succ k =>
      rw [readByte_wordCells_of_le (by omega), Option.none_or, show a + 4 * (k + 1) + j = a + 4 + 4 * k + j by omega]
      exact ih (a + 4) (by simpa using hk)

/-- PROGRAM maps no byte outside its text (R40). -/
theorem readByte_programCells_outside {big : Bool} {a k : Nat} {p : List Word} (h : k < a ∨ a + 4 * p.length ≤ k) :
    (programCells big a p).readByte k = none := by
  refine Memory.readByte_eq_none_of_not_mem ?_
  rw [programCells_map_fst, List.mem_range'_1]
  omega

/-- A word is its four bytes, the highest first (R8, R10). -/
theorem append_bytes (w : Word) :
    w.extractLsb' 24 8 ++ w.extractLsb' 16 8 ++ w.extractLsb' 8 8 ++ w.extractLsb' 0 8 = w := by
  rw [BitVec.extractLsb'_append_extractLsb'_eq_extractLsb' (start₂ := 24) (start₁ := 16) (len₁ := 8) rfl,
    BitVec.extractLsb'_append_extractLsb'_eq_extractLsb' (start₂ := 16) (start₁ := 8) (len₁ := 8) rfl,
    BitVec.extractLsb'_append_extractLsb'_eq_extractLsb' (start₂ := 8) (start₁ := 0) (len₁ := 8) rfl]
  exact BitVec.extractLsb'_eq_self

/-- The bytes of a stored word, read back in the same order, are the word (R41). -/
theorem wordOfBytes_storedByte (big : Bool) (w : Word) :
    wordOfBytes big (storedByte big w 0) (storedByte big w 1) (storedByte big w 2) (storedByte big w 3) = w := by
  cases big with
  | false | true => simp [wordOfBytes, storedByte, append_bytes]

/-- A fetch at an admitted `pc` reads the four bytes there (R41, R42). -/
theorem fetchWord_of_bytes {s : State} {b0 b1 b2 b3 : Byte} (hadm : s.fetchAdmitted = true)
    (h0 : s.mem.readByte s.pc.toNat = some b0) (h1 : s.mem.readByte (s.pc.toNat + 1) = some b1)
    (h2 : s.mem.readByte (s.pc.toNat + 2) = some b2) (h3 : s.mem.readByte (s.pc.toNat + 3) = some b3) :
    s.fetchWord = some (wordOfBytes s.cfg.fetchBigEndian b0 b1 b2 b3) := by
  simp [State.fetchWord, hadm, h0, h1, h2, h3]

section
variable (cfg : Config) (regs : Vector Word 15) (flags : Cpsr) (entryPc : Word) (program : List Word)

@[simp] theorem State.launch_programLength : (State.launch cfg regs flags entryPc program).programLength = program.length := by
  simp [State.programLength, State.launch]

@[simp] theorem State.launch_endPc :
    (State.launch cfg regs flags entryPc program).endPc = entryPc.toNat + 4 * program.length := by
  rw [State.endPc, State.launch_programLength]; rfl

variable {cfg regs flags entryPc program}

/-- A launch starts a run (R320, R321). -/
theorem State.launch_inRun (h4 : entryPc.toNat % 4 = 0) (hend : entryPc.toNat + 4 * program.length ≤ 0xFFFFFFFC) :
    (State.launch cfg regs flags entryPc program).InRun := by
  have hlen : (State.launch cfg regs flags entryPc program).mem.length = 4 * program.length := programCells_length ..
  rw [State.InRun, State.launch_endPc, hlen]
  exact ⟨h4, by omega, programCells_map_fst .., hend, h4, le_rfl, Nat.le_add_right ..⟩

/-- The `k`-th word of PROGRAM is fetched at `ENTRY_PC + 4k`, in either byte order (R40, R41). -/
theorem State.launch_fetchWord (h4 : entryPc.toNat % 4 = 0) (hend : entryPc.toNat + 4 * program.length ≤ 0xFFFFFFFC)
    {k : Nat} (hk : k < program.length) :
    ({ State.launch cfg regs flags entryPc program with pc := BitVec.ofNat 32 (entryPc.toNat + 4 * k) } : State).fetchWord =
      some program[k] := by
  generalize hs : ({ State.launch cfg regs flags entryPc program with
    pc := BitVec.ofNat 32 (entryPc.toNat + 4 * k) } : State) = s
  have hpc : s.pc.toNat = entryPc.toNat + 4 * k := by
    subst hs
    rw [BitVec.toNat_ofNat, Nat.mod_eq_of_lt (by omega)]
  have hadm : s.fetchAdmitted = true := by
    have hentry : s.entryPc = entryPc := by subst hs; rfl
    have hendPc : s.endPc = entryPc.toNat + 4 * program.length := by subst hs; exact State.launch_endPc cfg regs flags ..
    simp only [State.fetchAdmitted, hentry, hendPc, hpc, Bool.and_eq_true, decide_eq_true_eq, beq_iff_eq]
    omega
  have hbyte {j : Nat} (hj : j < 4) :
      s.mem.readByte (s.pc.toNat + j) = some (storedByte s.cfg.fetchBigEndian program[k] j) := by
    rw [hpc]; subst hs; exact readByte_programCells _ _ _ hk hj
  rw [fetchWord_of_bytes hadm (hbyte (j := 0) (by decide)) (hbyte (by decide)) (hbyte (by decide)) (hbyte (by decide)),
    wordOfBytes_storedByte]

end

/-- Settles O45: PROGRAM's cells start a run, hold each word at its place, and map nothing else. -/
theorem launchPlacesTheProgram : Obligations.LaunchPlacesTheProgram := by
  intro cfg regs flags entryPc program h4 hend
  have hrun : (State.launch cfg regs flags entryPc program).InRun := State.launch_inRun h4 hend
  refine ⟨hrun, hrun.mem_wf, rfl, rfl, rfl, rfl, rfl, State.launch_endPc .., ?_, fun a ha => ?_, fun k hk => ?_⟩
  · rw [State.remaining, State.launch_endPc]
    change (entryPc.toNat + 4 * program.length - entryPc.toNat) / 4 = _
    omega
  · rw [State.launch_endPc] at ha
    exact readByte_programCells_outside ha
  · exact State.launch_fetchWord h4 hend hk

end Sys2Proof.Machine

/-! ## The statements about instruction memory and the fetch -/

namespace Sys2Proof.Machine

/-- A fetch is admitted inside the program text, at a multiple of 4 (R42). -/
theorem State.fetchAdmitted_iff {s : State} :
    s.fetchAdmitted = true ↔ s.entryPc.toNat ≤ s.pc.toNat ∧ s.pc.toNat < s.endPc ∧ s.pc.toNat % 4 = 0 := by
  simp [State.fetchAdmitted, and_assoc]

theorem State.runOver_iff {s : State} : s.runOver = true ↔ s.pc.toNat = s.endPc := by
  simp [State.runOver]

theorem State.runOver_eq_false_iff {s : State} : s.runOver = false ↔ s.pc.toNat ≠ s.endPc := by
  simp [State.runOver]

/-- Where no fetch is admitted there is no word (R42). -/
theorem fetchWord_of_not_admitted {s : State} (h : ¬ s.fetchAdmitted = true) : s.fetchWord = none := by
  rw [State.fetchWord, if_neg h]

/-- Short of `END_PC`, a step without a fetched word is refused (R42, R303). -/
theorem step_of_fetchWord_none {s : State} (hpc : s.pc.toNat ≠ s.endPc) (hf : s.fetchWord = none) :
    step s = .refused .fetchOutOfProgram := by
  simp [step, State.runOver_eq_false_iff.2 hpc, hf]

/-- The step of a word that decodes is its instruction, from version 6 on (R52, R301). -/
theorem step_of_decode_ok {s : State} {w : Word} {i : Instr} (hf : s.fetchWord = some w) (hv : 6 ≤ s.cfg.archVersion)
    (hd : decode w = .ok i) : step s = exec i s := by
  obtain ⟨-, hlt, -⟩ := fetchAdmitted_of_fetchWord hf
  simp [step, State.runOver_eq_false_iff.2 hlt.ne, hf, decodeFor, hd, hv]

/-- Settles O29: the four bytes are the fetched word. -/
theorem stepRunsTheDecodedInstruction : Obligations.StepRunsTheDecodedInstruction := by
  intro s b0 b1 b2 b3 i hlow hhigh hpc hv h0 h1 h2 h3 hd
  have hadm : s.fetchAdmitted = true := State.fetchAdmitted_iff.2 ⟨hlow, hhigh, hpc⟩
  exact step_of_decode_ok (fetchWord_of_bytes hadm h0 h1 h2 h3) hv hd

/-! ### The program text in a state of a run -/

/-- In a state of a run `END_PC` is the end of the listed bytes (R40). -/
theorem State.InRun.endPc_eq {s : State} (h : s.InRun) : s.endPc = s.entryPc.toNat + s.mem.length := by
  obtain ⟨-, hlen, -⟩ := h
  simp only [State.endPc, State.programLength]
  omega

/-- In a state of a run every byte of the program text is listed (R40). -/
theorem State.InRun.mem_addresses {s : State} (h : s.InRun) {a : Nat} (hlow : s.entryPc.toNat ≤ a) (hhigh : a < s.endPc) :
    a ∈ s.mem.map Prod.fst := by
  have hend := h.endPc_eq
  obtain ⟨-, -, hcells, -⟩ := h
  rw [hcells, List.mem_range'_1]
  omega

/-- In a state of a run a fetch is admitted everywhere but at `END_PC` (R42). -/
theorem State.InRun.fetchAdmitted {s : State} (h : s.InRun) (hpc : s.pc.toNat ≠ s.endPc) : s.fetchAdmitted = true := by
  obtain ⟨-, -, -, -, hpc4, hlow, hhigh⟩ := h
  exact State.fetchAdmitted_iff.2 ⟨hlow, lt_of_le_of_ne hhigh hpc, hpc4⟩

/-- In a state of a run an admitted fetch has all four bytes below `END_PC`, which is a multiple of 4 (R40, R42). -/
theorem State.InRun.pc_add_lt_endPc {s : State} (h : s.InRun) (hadm : s.fetchAdmitted = true) {j : Nat} (hj : j < 4) :
    s.pc.toNat + j < s.endPc := by
  obtain ⟨-, hlt, hpc4⟩ := State.fetchAdmitted_iff.1 hadm
  have hend := h.endPc_eq
  obtain ⟨hentry4, hlen, -⟩ := h
  omega

/-- In a state of a run the four bytes of an admitted fetch are listed. -/
theorem State.InRun.pc_add_mem_addresses {s : State} (h : s.InRun) (hadm : s.fetchAdmitted = true) {j : Nat} (hj : j < 4) :
    s.pc.toNat + j ∈ s.mem.map Prod.fst := by
  obtain ⟨hlow, -, -⟩ := State.fetchAdmitted_iff.1 hadm
  exact h.mem_addresses (by omega) (h.pc_add_lt_endPc hadm hj)

/-- In a state of a run a word is fetched short of `END_PC` (R42, R322). -/
theorem State.InRun.exists_fetchWord {s : State} (h : s.InRun) (hpc : s.pc.toNat ≠ s.endPc) : ∃ w, s.fetchWord = some w := by
  have hadm := h.fetchAdmitted hpc
  have hbyte {j : Nat} (hj : j < 4) : ∃ b, s.mem.readByte (s.pc.toNat + j) = some b :=
    Memory.readByte_isSome_of_mem (h.pc_add_mem_addresses hadm hj)
  obtain ⟨b0, h0⟩ := hbyte (j := 0) (by decide)
  obtain ⟨b1, h1⟩ := hbyte (j := 1) (by decide)
  obtain ⟨b2, h2⟩ := hbyte (j := 2) (by decide)
  obtain ⟨b3, h3⟩ := hbyte (j := 3) (by decide)
  exact ⟨_, fetchWord_of_bytes hadm h0 h1 h2 h3⟩

/-- Settles O33: the three cases of `pc`, outside the text, inside it, and at its end. -/
theorem fetchBounds : Obligations.FetchBounds := by
  refine fun s => ⟨fun hpc hout => ?_, State.InRun.exists_fetchWord, fun hpc => step_of_runOver (State.runOver_iff.2 hpc)⟩
  exact step_of_fetchWord_none hpc (fetchWord_of_not_admitted (mt State.fetchAdmitted_iff.1 hout))

/-! ### Instruction memory over a run -/

theorem State.endPc_congr {s u : State} (hmem : u.mem = s.mem) (hentry : u.entryPc = s.entryPc) : u.endPc = s.endPc := by
  simp only [State.endPc, State.programLength, hmem, hentry]

/-- A fetch reads `pc`, the program text and the parameters only (R41, R42). -/
theorem State.fetchWord_congr {s u : State} (hpc : u.pc = s.pc) (hmem : u.mem = s.mem) (hentry : u.entryPc = s.entryPc)
    (hcfg : u.cfg = s.cfg) : u.fetchWord = s.fetchWord := by
  obtain ⟨_, _, _, _, _, _⟩ := u
  subst hpc hmem hentry hcfg
  rfl

/-- A run keeps the memory, `ENTRY_PC` and the parameters (R48). -/
theorem runSteps_keeps_program {k : Nat} {s t : State} (h : runSteps k s = .next t) :
    t.mem = s.mem ∧ t.entryPc = s.entryPc ∧ t.cfg = s.cfg := by
  refine runSteps_keeps (P := fun u => u.mem = s.mem ∧ u.entryPc = s.entryPc ∧ u.cfg = s.cfg)
    (fun {u v} hu ⟨hmem, hentry, hcfg⟩ => ?_) h ⟨rfl, rfl, rfl⟩
  obtain ⟨-, hmem', hentry', hcfg'⟩ := step_advances_and_keeps hu
  exact ⟨hmem'.trans hmem, hentry'.trans hentry, hcfg'.trans hcfg⟩

/-- Settles O41: a run keeps all that a read, `END_PC` and a fetch are made of. -/
theorem instructionMemoryIsReadOnly : Obligations.InstructionMemoryIsReadOnly := by
  intro k s t h
  obtain ⟨hmem, hentry, hcfg⟩ := runSteps_keeps_program h
  exact ⟨fun a => by rw [hmem], hentry, State.endPc_congr hmem hentry, fun p => State.fetchWord_congr rfl hmem hentry hcfg⟩

/-! ### The byte order of the fetch -/

/-- The state with the other parameters as they are and the byte order of the fetch as given. -/
def State.withFetchOrder (big : Bool) (s : State) : State := { s with cfg := { s.cfg with fetchBigEndian := big } }

/-- What an instruction answers, with `f` applied to the next state where there is one. -/
def mapNext (f : State → State) : Result → Result
  | .next s => .next (f s)
  | .fault r => .fault r
  | .refused r => .refused r

section
variable (big : Bool)

theorem State.withFetchOrder_apply (s : State) (d : GPR) (e : Effect) :
    (s.withFetchOrder big).apply d e = (s.apply d e).withFetchOrder big := by
  rcases e with ⟨v, _ | g, q⟩ <;> rfl

/-- The wrapper of R52 keeps to a body that does the same under both byte orders. -/
theorem complete_withFetchOrder {c : Cond} {s : State} {body : State → State}
    (h : body (s.withFetchOrder big) = (body s).withFetchOrder big) :
    complete c (s.withFetchOrder big) body = mapNext (State.withFetchOrder big) (complete c s body) := by
  have hbody : (if conditionPassed c s.cpsr then body (s.withFetchOrder big) else s.withFetchOrder big) =
      (if conditionPassed c s.cpsr then body s else s).withFetchOrder big := by
    rw [h, ← apply_ite (State.withFetchOrder big)]
  exact congrArg (fun u : State => (.next u.advance : Result)) hbody

variable (c : Cond) (rd ra rb rn : RegNum) (s : State)

theorem unary_withFetchOrder (f : Word → Effect) :
    unary c rd ra (s.withFetchOrder big) f = mapNext (State.withFetchOrder big) (unary c rd ra s f) := by
  unfold unary
  split
  · exact complete_withFetchOrder big (State.withFetchOrder_apply ..)
  · rfl

theorem binary_withFetchOrder (f : Word → Word → Effect) :
    binary c rd ra rb (s.withFetchOrder big) f = mapNext (State.withFetchOrder big) (binary c rd ra rb s f) := by
  unfold binary
  split
  · exact complete_withFetchOrder big (State.withFetchOrder_apply ..)
  · rfl

theorem ternary_withFetchOrder (f : Word → Word → Word → Effect) :
    ternary c rd ra rb rn (s.withFetchOrder big) f = mapNext (State.withFetchOrder big) (ternary c rd ra rb rn s f) := by
  unfold ternary
  split
  · exact complete_withFetchOrder big (State.withFetchOrder_apply ..)
  · rfl

theorem longAccumulate_withFetchOrder (rdLo rdHi rm rs : RegNum) (f : Int → Word → Word → Int) (q : Int → Bool) :
    longAccumulate c rdLo rdHi rm rs (s.withFetchOrder big) f q =
      mapNext (State.withFetchOrder big) (longAccumulate c rdLo rdHi rm rs s f q) := by
  unfold longAccumulate
  split
  · split
    · rfl
    · exact complete_withFetchOrder big rfl
  · rfl

/-- No instruction reads the byte order of the fetch (R41): the 69 by their number of operands. -/
theorem exec_withFetchOrder (i : Instr) :
    exec i (s.withFetchOrder big) = mapNext (State.withFetchOrder big) (exec i s) := by
  cases i with
  | sxtb16 | sxtb | sxth | uxtb16 | uxtb | uxth | rev | rev16 | revsh | ssat | ssat16 | usat | usat16 =>
    unfold exec; exact unary_withFetchOrder ..
  | smmla | usada8 | smmls | smlad | smlsd => unfold exec; exact ternary_withFetchOrder ..
  | smlald | smlsld => unfold exec; exact longAccumulate_withFetchOrder ..
  | _ => unfold exec; exact binary_withFetchOrder ..

end

/-- Settles O32: an admitted fetch is its four bytes in the order of the parameter, which no instruction reads. -/
theorem fetchByteOrder : Obligations.FetchByteOrder := by
  refine ⟨rfl, fun s b0 b1 b2 b3 hlow hhigh hpc h0 h1 h2 h3 => ?_, fun i s big => ?_⟩
  · have hw := fetchWord_of_bytes (State.fetchAdmitted_iff.2 ⟨hlow, hhigh, hpc⟩) h0 h1 h2 h3
    exact ⟨fun hb => by rw [hw, hb]; rfl, fun hb => by rw [hw, hb]; rfl⟩
  · have horder := exec_withFetchOrder big s i
    exact ⟨fun t h => by rw [h] at horder; exact horder, fun r h => by rw [h] at horder; exact horder⟩

/-! ### A word placed for the next fetch -/

/-- What a read returns after a byte is placed. -/
theorem Memory.readByte_writeByte (m : Memory) (k : Word) (v : Byte) (j : Nat) :
    (m.writeByte k v).readByte j = if j = k.toNat then some v else m.readByte j := by
  split
  next h => rw [h, Memory.readByte_writeByte_same]
  next h => rw [Memory.readByte_writeByte_ne m v h]

/-- Placing over a listed address keeps the list of addresses `l`. -/
theorem Memory.map_writeByte_eq {m : Memory} {l : List Nat} {k : Word} (v : Byte) (hl : l.Pairwise (· < ·)) (hk : k.toNat ∈ l)
    (hm : m.map Prod.fst = l) : (m.writeByte k v).map Prod.fst = l := by
  subst hm
  exact Memory.map_writeByte_of_mem hl hk

/-- An address a few bytes on, where the addition does not wrap. -/
theorem toNat_add_ofNat {pc : Word} {j : Nat} (h : pc.toNat + j < 2 ^ 32) : (pc + BitVec.ofNat 32 j).toNat = pc.toNat + j := by
  rw [BitVec.toNat_add, BitVec.toNat_ofNat, Nat.add_mod_mod, Nat.mod_eq_of_lt h]

section
variable {m : Memory} {pc w : Word} {big : Bool}

/-- Byte `j` of a word placed, as it lies in memory (R41). -/
theorem readByte_overwriteWord (hpc : pc.toNat + 3 < 2 ^ 32) {j : Nat} (hj : j < 4) :
    (overwriteWord m big pc w).readByte (pc.toNat + j) = some (storedByte big w j) := by
  have h1 : (pc + 1).toNat = pc.toNat + 1 := toNat_add_ofNat (j := 1) (by omega)
  have h2 : (pc + 2).toNat = pc.toNat + 2 := toNat_add_ofNat (j := 2) (by omega)
  have h3 : (pc + 3).toNat = pc.toNat + 3 := toNat_add_ofNat (j := 3) (by omega)
  simp only [overwriteWord, Memory.readByte_writeByte, h1, h2, h3]
  interval_cases j <;> simp

/-- A word placed over four listed bytes keeps the list of addresses. -/
theorem map_overwriteWord (hm : m.wf = true) (hpc : pc.toNat + 3 < 2 ^ 32)
    (hlisted : ∀ {j}, j < 4 → pc.toNat + j ∈ m.map Prod.fst) : (overwriteWord m big pc w).map Prod.fst = m.map Prod.fst := by
  obtain ⟨hl, -⟩ := Memory.wf_iff.1 hm
  have hat {j : Nat} (hj : j < 4) : (pc + BitVec.ofNat 32 j).toNat ∈ m.map Prod.fst := by
    rw [toNat_add_ofNat (by omega)]
    exact hlisted hj
  have h0 := Memory.map_writeByte_eq (storedByte big w 0) hl (hlisted (j := 0) (by decide)) rfl
  have h1 := Memory.map_writeByte_eq (storedByte big w 1) hl (hat (j := 1) (by decide)) h0
  have h2 := Memory.map_writeByte_eq (storedByte big w 2) hl (hat (j := 2) (by decide)) h1
  exact Memory.map_writeByte_eq (storedByte big w 3) hl (hat (j := 3) (by decide)) h2

end

section
variable {s : State} (w : Word)

/-- A 32-bit word is placed whole. -/
theorem State.withFetchWord_toNat : s.withFetchWord 32 w.toNat = s.placeWord w := by
  rw [State.withFetchWord, Nat.mod_eq_of_lt w.isLt, BitVec.ofNat_toNat, BitVec.setWidth_eq]

theorem State.placeWord_of_admitted (h : s.fetchAdmitted = true) :
    s.placeWord w = { s with mem := overwriteWord s.mem s.cfg.fetchBigEndian s.pc w } := if_pos h

/-- Where no fetch is admitted, placing a word is launching it as the whole program (R320). -/
theorem State.placeWord_of_not_admitted (h : ¬ s.fetchAdmitted = true) :
    s.placeWord w = State.launch s.cfg s.regs s.cpsr s.pc [w] := if_neg h

/-- Placing a word touches the program text only. -/
theorem State.placeWord_keeps :
    (s.placeWord w).pc = s.pc ∧ (s.placeWord w).regs = s.regs ∧ (s.placeWord w).cpsr = s.cpsr ∧ (s.placeWord w).cfg = s.cfg := by
  unfold State.placeWord
  split <;> exact ⟨rfl, rfl, rfl, rfl⟩

variable {w}

/-- Over the word at `pc`, the addresses stay as they are, and the fetch reads the new bytes. -/
theorem State.InRun.placeWord_of_admitted (h : s.InRun) (hadm : s.fetchAdmitted = true) :
    (s.placeWord w).InRun ∧ (s.placeWord w).fetchWord = some w := by
  have hpc : s.pc.toNat + 3 < 2 ^ 32 := by
    have hlt := h.pc_add_lt_endPc hadm (j := 3) (by decide)
    obtain ⟨-, -, -, hend, -⟩ := h
    omega
  have hcells : (overwriteWord s.mem s.cfg.fetchBigEndian s.pc w).map Prod.fst = s.mem.map Prod.fst :=
    map_overwriteWord h.mem_wf hpc (h.pc_add_mem_addresses hadm)
  have hlen : (overwriteWord s.mem s.cfg.fetchBigEndian s.pc w).length = s.mem.length := by
    simpa using congrArg List.length hcells
  rw [State.placeWord_of_admitted w hadm]
  generalize ht : ({ s with mem := overwriteWord s.mem s.cfg.fetchBigEndian s.pc w } : State) = t
  have hend : t.endPc = s.endPc := by subst ht; simp only [State.endPc, State.programLength, hlen]
  have hbyte {j : Nat} (hj : j < 4) : t.mem.readByte (t.pc.toNat + j) = some (storedByte t.cfg.fetchBigEndian w j) := by
    subst ht; exact readByte_overwriteWord hpc hj
  have hadm' : t.fetchAdmitted = true := by
    rw [State.fetchAdmitted_iff] at hadm ⊢
    rw [hend]; subst ht; exact hadm
  refine ⟨?_, ?_⟩
  · rw [State.InRun, hend]
    subst ht
    rw [hcells, hlen]
    exact h
  · rw [fetchWord_of_bytes hadm' (hbyte (j := 0) (by decide)) (hbyte (by decide)) (hbyte (by decide)) (hbyte (by decide)),
      wordOfBytes_storedByte]

/-- At `END_PC`, the word is a launched program of its own. -/
theorem State.InRun.placeWord_of_not_admitted (h : s.InRun) (hpc : s.pc.toNat ≤ 0xFFFFFFF8) (hadm : ¬ s.fetchAdmitted = true) :
    (s.placeWord w).InRun ∧ (s.placeWord w).fetchWord = some w := by
  obtain ⟨-, -, -, -, hpc4, -, -⟩ := h
  have hend : s.pc.toNat + 4 * [w].length ≤ 0xFFFFFFFC := by simp; omega
  rw [State.placeWord_of_not_admitted w hadm]
  refine ⟨State.launch_inRun hpc4 hend, ?_⟩
  have hfetch := State.launch_fetchWord (cfg := s.cfg) (regs := s.regs) (flags := s.cpsr) hpc4 hend (k := 0) (by simp)
  rw [Nat.mul_zero, Nat.add_zero, BitVec.ofNat_toNat, BitVec.setWidth_eq] at hfetch
  exact hfetch

end

/-- Settles O46: over the word at `pc`, or at `END_PC` as a program of its own, the next fetch reads the word placed. -/
theorem placedWordRunsNext : Obligations.PlacedWordRunsNext := by
  intro s w hs hpc t
  have ht : t = s.placeWord w := State.withFetchWord_toNat w
  obtain ⟨hrun, hfetch⟩ : t.InRun ∧ t.fetchWord = some w := by
    rw [ht]
    by_cases hadm : s.fetchAdmitted = true
    · exact hs.placeWord_of_admitted hadm
    · exact hs.placeWord_of_not_admitted hpc hadm
  obtain ⟨hpc', hregs, hcpsr, hcfg⟩ : t.pc = s.pc ∧ t.regs = s.regs ∧ t.cpsr = s.cpsr ∧ t.cfg = s.cfg :=
    ht ▸ State.placeWord_keeps w
  exact ⟨hfetch, hrun, hrun.mem_wf, hpc', hregs, hcpsr, hcfg, fun hv i hd => step_of_decode_ok hfetch (hcfg ▸ hv) hd⟩

end Sys2Proof.Machine

/-! ## The encoding: the table's rows, the decoder and the encoder -/

namespace Sys2Proof

open Laws

/-! ### The rows are disjoint -/

theorem OpRow.matchesWord_iff {r : OpRow} {w : Word} :
    r.matchesWord w = true ↔ w &&& r.mask = r.value ∧ ∀ lo ∈ r.marker, nibbleAt w lo ≠ 15 := by
  rcases r with ⟨m, value, mask, _ | lo⟩ <;> simp [OpRow.matchesWord]

/-- A field that a mask takes whole holds what the fixed bits say. -/
theorem field_of_fixed {w mask value : Word} (h : w &&& mask = value) {lo n : Nat}
    (hm : mask.extractLsb' lo n = BitVec.allOnes n) : w.extractLsb' lo n = value.extractLsb' lo n := by
  rw [← h, BitVec.extractLsb'_and, hm, BitVec.and_allOnes]

/-- The fixed bits of `q` hold 15 in the marker field of `r`. -/
def OpRow.fixesMarkerOf (q r : OpRow) : Bool :=
  match r.marker with
  | none => false
  | some lo => nibbleAt q.mask lo == 15 && nibbleAt q.value lo == 15

/-- A bit that both rows fix differs, or one row fixes the other's marker field at 15. -/
def OpRow.apart (r q : OpRow) : Bool :=
  r.value &&& q.mask != q.value &&& r.mask || q.fixesMarkerOf r || r.fixesMarkerOf q

theorem OpRow.fixesMarkerOf_eq_false {r q : OpRow} {w : Word} (hr : r.matchesWord w = true) (hq : q.matchesWord w = true) :
    q.fixesMarkerOf r = false := by
  obtain ⟨-, hmarker⟩ := matchesWord_iff.1 hr
  obtain ⟨hfixed, -⟩ := matchesWord_iff.1 hq
  unfold fixesMarkerOf
  split
  · rfl
  · next lo hlo =>
    by_contra h
    obtain ⟨hm, hv⟩ : nibbleAt q.mask lo = 15 ∧ nibbleAt q.value lo = 15 := by simpa using h
    exact hmarker lo hlo ((field_of_fixed hfixed hm).trans hv)

/-- Rows that one word matches are not apart. -/
theorem OpRow.apart_eq_false {r q : OpRow} {w : Word} (hr : r.matchesWord w = true) (hq : q.matchesWord w = true) :
    r.apart q = false := by
  have hcommon : r.value &&& q.mask = q.value &&& r.mask := by
    rw [← (matchesWord_iff.1 hr).1, ← (matchesWord_iff.1 hq).1, BitVec.and_assoc, BitVec.and_assoc, BitVec.and_comm r.mask]
  simp [apart, hcommon, fixesMarkerOf_eq_false hr hq, fixesMarkerOf_eq_false hq hr]

theorem opcodeTable_apart : ∀ r ∈ opcodeTable, ∀ q ∈ opcodeTable, r = q ∨ r.apart q = true := by
  decide +kernel

/-- Settles O19: two different rows of the table are apart, and rows that one word matches are not. -/
theorem opcodeRowsDisjoint : Obligations.OpcodeRowsDisjoint := by
  refine ⟨rfl, by decide, fun w r q hr hq hrw hqw => ?_⟩
  refine (opcodeTable_apart r hr q hq).resolve_right ?_
  simp [OpRow.apart_eq_false hrw hqw]

/-! ### What the decoder answers -/

theorem Cond.ofBits_eq_some_iff {b : BitVec 4} {c : Cond} : Cond.ofBits b = some c ↔ b = c.bits := by
  cases c <;> revert b <;> decide

theorem Cond.ofBits_eq_none_iff {b : BitVec 4} : Cond.ofBits b = none ↔ b = 15 := by
  revert b; decide

theorem Cond.bits_injective {c d : Cond} (h : c.bits = d.bits) : c = d :=
  Option.some.inj ((ofBits_eq_some_iff.2 rfl).symm.trans (ofBits_eq_some_iff.2 h))

theorem Cond.bits_ne_fifteen (c : Cond) : c.bits ≠ 15 := by
  cases c <;> decide

/-- All that the decoder can answer: the condition field is tested first, then the rows (R52, R54, R55, R57). -/
theorem decode_cases (w : Word) :
    (nibbleAt w 28 = 15 ∧ decode w = .error .unconditionalSpace) ∨
    (nibbleAt w 28 ≠ 15 ∧ (∀ r ∈ opcodeTable, r.matchesWord w = false) ∧ decode w = .error .notInOpcodeTable) ∨
    ∃ (c : Cond) (r : OpRow), nibbleAt w 28 = c.bits ∧ r ∈ opcodeTable ∧ r.matchesWord w = true ∧
      decode w = .ok (buildInstr r.mnemonic c w) := by
  unfold decode
  split
  · next hc => exact .inl ⟨Cond.ofBits_eq_none_iff.1 hc, rfl⟩
  · next c hc =>
    have hbits := Cond.ofBits_eq_some_iff.1 hc
    split
    · next hr => exact .inr (.inl ⟨hbits ▸ c.bits_ne_fifteen, by simpa using hr, rfl⟩)
    · next r hr =>
      have hm : r.matchesWord w = true := List.find?_some (p := fun q : OpRow => q.matchesWord w) hr
      exact .inr (.inr ⟨c, r, hbits, List.mem_of_find?_eq_some hr, hm, rfl⟩)

/-- A word decodes to the instruction of a row it matches, whichever row that is (R55). -/
theorem decode_of_matchesWord {w : Word} {c : Cond} {r : OpRow} (hc : nibbleAt w 28 = c.bits) (hr : r ∈ opcodeTable)
    (hm : r.matchesWord w = true) : decode w = .ok (buildInstr r.mnemonic c w) := by
  rcases decode_cases w with ⟨h15, -⟩ | ⟨-, hnone, -⟩ | ⟨d, q, hd, hq, hqm, hdec⟩
  · exact absurd (hc.symm.trans h15) c.bits_ne_fifteen
  · simp [hnone r hr] at hm
  · obtain ⟨-, -, hdisjoint⟩ := opcodeRowsDisjoint
    obtain rfl : q = r := hdisjoint w q r hq hr hqm hm
    obtain rfl : d = c := Cond.bits_injective (hd.symm.trans hc)
    exact hdec

/-- Settles O22, by the three answers of the decoder. -/
theorem decodeRejectsExactlyUnlistedWords : Obligations.DecodeRejectsExactlyUnlistedWords := by
  intro w
  change (_ ↔ nibbleAt w 28 = 15) ∧ (_ ↔ nibbleAt w 28 ≠ 15 ∧ _)
  rcases decode_cases w with ⟨h15, hdec⟩ | ⟨h15, hnone, hdec⟩ | ⟨c, r, hc, hr, hm, hdec⟩
  · simp [hdec, h15]
  · simpa [hdec] using ⟨h15, hnone⟩
  · have h15 : nibbleAt w 28 ≠ 15 := hc ▸ c.bits_ne_fifteen
    have hrow : ¬ ∀ q ∈ opcodeTable, q.matchesWord w = false := fun h => by simp [h r hr] at hm
    simp only [hdec, h15, hrow, reduceCtorEq, and_false, and_self]

/-! ### The operand fields of the formats (R51) -/

theorem extractLsb'_one (w : Word) (i : Nat) : w.extractLsb' i 1 = BitVec.ofBool (w.getLsbD i) := by
  refine BitVec.eq_of_getLsbD_eq fun j hj => ?_
  obtain rfl : j = 0 := by omega
  simp

theorem getLsbD_of_flagBit {w : Word} {i : Nat} {b : Bool} (h : w.extractLsb' i 1 = flagBit b) : w.getLsbD i = b := by
  rw [extractLsb'_one] at h
  simpa [flagBit] using congrArg BitVec.msb h

theorem ShiftType.bit_eq_flagBit (sh : ShiftType) : sh.bit = flagBit (sh == .asr) := by
  cases sh <;> rfl

/-- Bit 6 of format SAT is read as the shift type it was written for. -/
theorem ShiftType.ite_beq_asr (sh : ShiftType) : (if (sh == .asr) = true then ShiftType.asr else .lsl) = sh := by
  cases sh <;> rfl

theorem ShiftType.bit_ite (b : Bool) : (if b = true then ShiftType.asr else .lsl).bit = flagBit b := by
  cases b <;> rfl

theorem extWord_fields (c : Cond) (op : BitVec 3) (rn rd : RegNum) (rot : BitVec 2) (rm : RegNum) :
    nibbleAt (extWord c op rn rd rot rm) 12 = rd ∧ (extWord c op rn rd rot rm).extractLsb' 10 2 = rot ∧
      nibbleAt (extWord c op rn rd rot rm) 0 = rm := by
  unfold nibbleAt extWord
  simp (disch := decide) only [BitVec.extractLsb'_append_eq_of_le, BitVec.extractLsb'_append_eq_of_add_le]
  simp

theorem selWord_fields (c : Cond) (rn rd rm : RegNum) :
    nibbleAt (selWord c rn rd rm) 16 = rn ∧ nibbleAt (selWord c rn rd rm) 12 = rd ∧ nibbleAt (selWord c rn rd rm) 0 = rm := by
  unfold nibbleAt selWord
  simp (disch := decide) only [BitVec.extractLsb'_append_eq_of_le, BitVec.extractLsb'_append_eq_of_add_le]
  simp

theorem pasWord_fields (c : Cond) (op1 : BitVec 3) (rn rd : RegNum) (op2 : BitVec 3) (rm : RegNum) :
    nibbleAt (pasWord c op1 rn rd op2 rm) 16 = rn ∧ nibbleAt (pasWord c op1 rn rd op2 rm) 12 = rd ∧
      nibbleAt (pasWord c op1 rn rd op2 rm) 0 = rm := by
  unfold nibbleAt pasWord
  simp (disch := decide) only [BitVec.extractLsb'_append_eq_of_le, BitVec.extractLsb'_append_eq_of_add_le]
  simp

theorem mulWord_fields (c : Cond) (op1 : BitVec 3) (b19 b15 rs : RegNum) (op2 : BitVec 2) (xr : Bool) (rm : RegNum) :
    nibbleAt (mulWord c op1 b19 b15 rs op2 xr rm) 16 = b19 ∧ nibbleAt (mulWord c op1 b19 b15 rs op2 xr rm) 8 = rs ∧
      (mulWord c op1 b19 b15 rs op2 xr rm).extractLsb' 5 1 = flagBit xr ∧
      nibbleAt (mulWord c op1 b19 b15 rs op2 xr rm) 0 = rm := by
  unfold nibbleAt mulWord
  simp (disch := decide) only [BitVec.extractLsb'_append_eq_of_le, BitVec.extractLsb'_append_eq_of_add_le]
  simp

theorem satWord_fields (c : Cond) (op : BitVec 7) (satImm : BitVec 5) (rd : RegNum) (shiftImm : BitVec 5) (sh : ShiftType)
    (rm : RegNum) :
    (satWord c op satImm rd shiftImm sh rm).extractLsb' 16 5 = satImm ∧
      nibbleAt (satWord c op satImm rd shiftImm sh rm) 12 = rd ∧
      (satWord c op satImm rd shiftImm sh rm).extractLsb' 7 5 = shiftImm ∧
      (satWord c op satImm rd shiftImm sh rm).extractLsb' 6 1 = sh.bit ∧
      nibbleAt (satWord c op satImm rd shiftImm sh rm) 0 = rm := by
  unfold nibbleAt satWord
  simp (disch := decide) only [BitVec.extractLsb'_append_eq_of_le, BitVec.extractLsb'_append_eq_of_add_le]
  simp

theorem sat16Word_fields (c : Cond) (op : BitVec 7) (satImm : BitVec 4) (rd rm : RegNum) :
    nibbleAt (sat16Word c op satImm rd rm) 16 = satImm ∧ nibbleAt (sat16Word c op satImm rd rm) 12 = rd ∧
      nibbleAt (sat16Word c op satImm rd rm) 0 = rm := by
  unfold nibbleAt sat16Word
  simp (disch := decide) only [BitVec.extractLsb'_append_eq_of_le, BitVec.extractLsb'_append_eq_of_add_le]
  simp

theorem usadWord_fields (c : Cond) (rd b15 rs rm : RegNum) :
    nibbleAt (usadWord c rd b15 rs rm) 16 = rd ∧ nibbleAt (usadWord c rd b15 rs rm) 8 = rs ∧
      nibbleAt (usadWord c rd b15 rs rm) 0 = rm := by
  unfold nibbleAt usadWord
  simp (disch := decide) only [BitVec.extractLsb'_append_eq_of_le, BitVec.extractLsb'_append_eq_of_add_le]
  simp

theorem pkhWord_fields (c : Cond) (rn rd : RegNum) (shiftImm : BitVec 5) (op : BitVec 3) (rm : RegNum) :
    nibbleAt (pkhWord c rn rd shiftImm op rm) 16 = rn ∧ nibbleAt (pkhWord c rn rd shiftImm op rm) 12 = rd ∧
      (pkhWord c rn rd shiftImm op rm).extractLsb' 7 5 = shiftImm ∧ nibbleAt (pkhWord c rn rd shiftImm op rm) 0 = rm := by
  unfold nibbleAt pkhWord
  simp (disch := decide) only [BitVec.extractLsb'_append_eq_of_le, BitVec.extractLsb'_append_eq_of_add_le]
  simp

theorem revWord_fields (c : Cond) (opA : BitVec 1) (rd : RegNum) (opB : BitVec 1) (rm : RegNum) :
    nibbleAt (revWord c opA rd opB rm) 12 = rd ∧ nibbleAt (revWord c opA rd opB rm) 0 = rm := by
  unfold nibbleAt revWord
  simp (disch := decide) only [BitVec.extractLsb'_append_eq_of_le, BitVec.extractLsb'_append_eq_of_add_le]
  simp

theorem mulWord_xr (c : Cond) (op1 : BitVec 3) (b19 b15 rs : RegNum) (op2 : BitVec 2) (xr : Bool) (rm : RegNum) :
    (mulWord c op1 b19 b15 rs op2 xr rm).getLsbD 5 = xr := by
  obtain ⟨-, -, hxr, -⟩ := mulWord_fields c op1 b19 b15 rs op2 xr rm
  exact getLsbD_of_flagBit hxr

theorem satWord_sh (c : Cond) (op : BitVec 7) (satImm : BitVec 5) (rd : RegNum) (shiftImm : BitVec 5) (sh : ShiftType)
    (rm : RegNum) : (satWord c op satImm rd shiftImm sh rm).getLsbD 6 = (sh == .asr) := by
  obtain ⟨-, -, -, hsh, -⟩ := satWord_fields c op satImm rd shiftImm sh rm
  exact getLsbD_of_flagBit (hsh.trans sh.bit_eq_flagBit)

/-! ### Decoding inverts encoding -/

/-- The operands that the decoder reads from an encoding are the instruction's, well formed or not. -/
theorem buildInstr_encode (i : Instr) : buildInstr i.mnemonic i.cond (encode i) = i := by
  cases i with
  | sxtab16 | sxtab | sxtah | uxtab16 | uxtab | uxtah | sxtb16 | sxtb | sxth | uxtb16 | uxtb | uxth =>
    simp [buildInstr, Instr.mnemonic, Instr.cond, encode, extWord_marker, extWord_fields]
  | sel => simp [buildInstr, Instr.mnemonic, Instr.cond, encode, selWord_fields]
  | sadd16 | saddsubx | ssubaddx | ssub16 | sadd8 | ssub8 | qadd16 | qaddsubx | qsubaddx | qsub16 | qadd8 | qsub8
  | shadd16 | shaddsubx | shsubaddx | shsub16 | shadd8 | shsub8 | uadd16 | uaddsubx | usubaddx | usub16 | uadd8 | usub8
  | uqadd16 | uqaddsubx | uqsubaddx | uqsub16 | uqadd8 | uqsub8 | uhadd16 | uhaddsubx | uhsubaddx | uhsub16 | uhadd8 | uhsub8 =>
    simp [buildInstr, Instr.mnemonic, Instr.cond, encode, pasWord_fields]
  | smuad | smlad | smusd | smlsd | smlald | smlsld | smmul | smmla | smmls =>
    simp only [buildInstr, Instr.mnemonic, Instr.cond, encode, mulWord_marker, mulWord_fields,
      mulWord_xr]
  | ssat | usat =>
    simp only [buildInstr, Instr.mnemonic, Instr.cond, encode, satWord_fields, satWord_sh, ShiftType.ite_beq_asr]
  | ssat16 | usat16 => simp [buildInstr, Instr.mnemonic, Instr.cond, encode, sat16Word_fields]
  | usad8 | usada8 => simp [buildInstr, Instr.mnemonic, Instr.cond, encode, usadWord_marker, usadWord_fields]
  | pkhbt | pkhtb => simp [buildInstr, Instr.mnemonic, Instr.cond, encode, pkhWord_fields]
  | rev | rev16 | revsh => simp [buildInstr, Instr.mnemonic, Instr.cond, encode, revWord_fields]

/-- The word of every instruction holds its condition and, where no register field is 15, matches its row (R50, R55). -/
theorem rowMatch : ∀ i : Instr, RowMatch.Statement i
  | .sxtab16 .. => RowMatch.sxtab16 ..
  | .sxtab .. => RowMatch.sxtab ..
  | .sxtah .. => RowMatch.sxtah ..
  | .uxtab16 .. => RowMatch.uxtab16 ..
  | .uxtab .. => RowMatch.uxtab ..
  | .uxtah .. => RowMatch.uxtah ..
  | .sxtb16 .. => RowMatch.sxtb16 ..
  | .sxtb .. => RowMatch.sxtb ..
  | .sxth .. => RowMatch.sxth ..
  | .uxtb16 .. => RowMatch.uxtb16 ..
  | .uxtb .. => RowMatch.uxtb ..
  | .uxth .. => RowMatch.uxth ..
  | .sel .. => RowMatch.sel ..
  | .sadd16 .. => RowMatch.sadd16 ..
  | .saddsubx .. => RowMatch.saddsubx ..
  | .ssubaddx .. => RowMatch.ssubaddx ..
  | .ssub16 .. => RowMatch.ssub16 ..
  | .sadd8 .. => RowMatch.sadd8 ..
  | .ssub8 .. => RowMatch.ssub8 ..
  | .qadd16 .. => RowMatch.qadd16 ..
  | .qaddsubx .. => RowMatch.qaddsubx ..
  | .qsubaddx .. => RowMatch.qsubaddx ..
  | .qsub16 .. => RowMatch.qsub16 ..
  | .qadd8 .. => RowMatch.qadd8 ..
  | .qsub8 .. => RowMatch.qsub8 ..
  | .shadd16 .. => RowMatch.shadd16 ..
  | .shaddsubx .. => RowMatch.shaddsubx ..
  | .shsubaddx .. => RowMatch.shsubaddx ..
  | .shsub16 .. => RowMatch.shsub16 ..
  | .shadd8 .. => RowMatch.shadd8 ..
  | .shsub8 .. => RowMatch.shsub8 ..
  | .uadd16 .. => RowMatch.uadd16 ..
  | .uaddsubx .. => RowMatch.uaddsubx ..
  | .usubaddx .. => RowMatch.usubaddx ..
  | .usub16 .. => RowMatch.usub16 ..
  | .uadd8 .. => RowMatch.uadd8 ..
  | .usub8 .. => RowMatch.usub8 ..
  | .uqadd16 .. => RowMatch.uqadd16 ..
  | .uqaddsubx .. => RowMatch.uqaddsubx ..
  | .uqsubaddx .. => RowMatch.uqsubaddx ..
  | .uqsub16 .. => RowMatch.uqsub16 ..
  | .uqadd8 .. => RowMatch.uqadd8 ..
  | .uqsub8 .. => RowMatch.uqsub8 ..
  | .uhadd16 .. => RowMatch.uhadd16 ..
  | .uhaddsubx .. => RowMatch.uhaddsubx ..
  | .uhsubaddx .. => RowMatch.uhsubaddx ..
  | .uhsub16 .. => RowMatch.uhsub16 ..
  | .uhadd8 .. => RowMatch.uhadd8 ..
  | .uhsub8 .. => RowMatch.uhsub8 ..
  | .smuad .. => RowMatch.smuad ..
  | .smlad .. => RowMatch.smlad ..
  | .smusd .. => RowMatch.smusd ..
  | .smlsd .. => RowMatch.smlsd ..
  | .smlald .. => RowMatch.smlald ..
  | .smlsld .. => RowMatch.smlsld ..
  | .smmul .. => RowMatch.smmul ..
  | .smmla .. => RowMatch.smmla ..
  | .smmls .. => RowMatch.smmls ..
  | .ssat .. => RowMatch.ssat ..
  | .usat .. => RowMatch.usat ..
  | .ssat16 .. => RowMatch.ssat16 ..
  | .usat16 .. => RowMatch.usat16 ..
  | .usad8 .. => RowMatch.usad8 ..
  | .usada8 .. => RowMatch.usada8 ..
  | .pkhbt .. => RowMatch.pkhbt ..
  | .pkhtb .. => RowMatch.pkhtb ..
  | .rev .. => RowMatch.rev ..
  | .rev16 .. => RowMatch.rev16 ..
  | .revsh .. => RowMatch.revsh ..

/-- Settles O20: the word matches the instruction's row, so the decoder reads that row's operands from it. -/
theorem decodeInvertsEncode : Obligations.DecodeInvertsEncode := by
  intro i hi
  obtain ⟨hnoR15, -⟩ : i.noR15 = true ∧ i.distinctDestinations = true := by simpa [Instr.wellFormed] using hi
  obtain ⟨hc, hrow⟩ := rowMatch i
  obtain ⟨r, hr, hmnemonic, hm⟩ := hrow hnoR15
  rw [decode_of_matchesWord hc hr hm, hmnemonic, buildInstr_encode]

/-! ### Encoding inverts decoding -/

/-- Words are equal that agree under a mask and in fields which fill what the mask leaves out. -/
theorem eq_of_fields {v w mask : Word} (fields : List (Nat × Nat)) (hfixed : v &&& mask = w &&& mask)
    (hfields : fields.Forall fun f => v.extractLsb' f.1 f.2 = w.extractLsb' f.1 f.2)
    (hcover : ∀ i < 32, mask.getLsbD i = true ∨ ∃ f ∈ fields, f.1 ≤ i ∧ i < f.1 + f.2) : v = w := by
  refine BitVec.eq_of_getLsbD_eq fun i hi => ?_
  rcases hcover i hi with hm | ⟨f, hf, hlo, hhi⟩
  · simpa [hm] using congrArg (·.getLsbD i) hfixed
  · have hbit := congrArg (·.getLsbD (i - f.1)) (List.forall_iff_forall_mem.1 hfields f hf)
    simpa [Nat.add_sub_cancel' hlo, Nat.sub_lt_left_of_lt_add hlo hhi] using hbit

section
variable {w : Word} {c : Cond} (hc : nibbleAt w 28 = c.bits)
include hc

theorem extWord_eq {op : BitVec 3}
    (h : w &&& 0x0FF003F0#32 = 0#4 ++ 0b01101#5 ++ op ++ 0#4 ++ 0#4 ++ 0#2 ++ 0b000111#6 ++ 0#4) :
    extWord c op (nibbleAt w 16) (nibbleAt w 12) (w.extractLsb' 10 2) (nibbleAt w 0) = w := by
  obtain ⟨hrd, hrot, hrm⟩ := extWord_fields c op (nibbleAt w 16) (nibbleAt w 12) (w.extractLsb' 10 2) (nibbleAt w 0)
  exact eq_of_fields [(28, 4), (16, 4), (12, 4), (10, 2), (0, 4)] ((extWord_fixed ..).trans h.symm)
    ⟨(extWord_cond ..).trans hc.symm, extWord_marker .., hrd, hrot, hrm⟩ (by decide)

theorem extWord_marked_eq {op : BitVec 3} {rn : RegNum}
    (h : w &&& 0x0FFF03F0#32 = 0#4 ++ 0b01101#5 ++ op ++ rn ++ 0#4 ++ 0#2 ++ 0b000111#6 ++ 0#4) :
    extWord c op rn (nibbleAt w 12) (w.extractLsb' 10 2) (nibbleAt w 0) = w := by
  obtain ⟨hrd, hrot, hrm⟩ := extWord_fields c op rn (nibbleAt w 12) (w.extractLsb' 10 2) (nibbleAt w 0)
  exact eq_of_fields [(28, 4), (12, 4), (10, 2), (0, 4)] ((extWord_marked ..).trans h.symm)
    ⟨(extWord_cond ..).trans hc.symm, hrd, hrot, hrm⟩ (by decide)

theorem selWord_eq (h : w &&& 0x0FF00FF0#32 = 0#4 ++ 0b01101000#8 ++ 0#4 ++ 0#4 ++ 0b11111011#8 ++ 0#4) :
    selWord c (nibbleAt w 16) (nibbleAt w 12) (nibbleAt w 0) = w := by
  obtain ⟨hrn, hrd, hrm⟩ := selWord_fields c (nibbleAt w 16) (nibbleAt w 12) (nibbleAt w 0)
  exact eq_of_fields [(28, 4), (16, 4), (12, 4), (0, 4)] ((selWord_fixed ..).trans h.symm)
    ⟨(selWord_cond ..).trans hc.symm, hrn, hrd, hrm⟩ (by decide)

theorem pasWord_eq {op1 op2 : BitVec 3}
    (h : w &&& 0x0FF00FF0#32 = 0#4 ++ 0b01100#5 ++ op1 ++ 0#4 ++ 0#4 ++ 0b1111#4 ++ op2 ++ 0b1#1 ++ 0#4) :
    pasWord c op1 (nibbleAt w 16) (nibbleAt w 12) op2 (nibbleAt w 0) = w := by
  obtain ⟨hrn, hrd, hrm⟩ := pasWord_fields c op1 (nibbleAt w 16) (nibbleAt w 12) op2 (nibbleAt w 0)
  exact eq_of_fields [(28, 4), (16, 4), (12, 4), (0, 4)] ((pasWord_fixed ..).trans h.symm)
    ⟨(pasWord_cond ..).trans hc.symm, hrn, hrd, hrm⟩ (by decide)

theorem mulWord_eq {op1 : BitVec 3} {op2 : BitVec 2}
    (h : w &&& 0x0FF000D0#32 = 0#4 ++ 0b01110#5 ++ op1 ++ 0#4 ++ 0#4 ++ 0#4 ++ op2 ++ 0#1 ++ 0b1#1 ++ 0#4) :
    mulWord c op1 (nibbleAt w 16) (nibbleAt w 12) (nibbleAt w 8) op2 (w.getLsbD 5) (nibbleAt w 0) = w := by
  obtain ⟨hrd, hrs, hxr, hrm⟩ :=
    mulWord_fields c op1 (nibbleAt w 16) (nibbleAt w 12) (nibbleAt w 8) op2 (w.getLsbD 5) (nibbleAt w 0)
  exact eq_of_fields [(28, 4), (16, 4), (12, 4), (8, 4), (5, 1), (0, 4)] ((mulWord_fixed ..).trans h.symm)
    ⟨(mulWord_cond ..).trans hc.symm, hrd, mulWord_marker .., hrs, hxr.trans (extractLsb'_one w 5).symm, hrm⟩ (by decide)

theorem mulWord_marked_eq {op1 : BitVec 3} {b15 : RegNum} {op2 : BitVec 2}
    (h : w &&& 0x0FF0F0D0#32 = 0#4 ++ 0b01110#5 ++ op1 ++ 0#4 ++ b15 ++ 0#4 ++ op2 ++ 0#1 ++ 0b1#1 ++ 0#4) :
    mulWord c op1 (nibbleAt w 16) b15 (nibbleAt w 8) op2 (w.getLsbD 5) (nibbleAt w 0) = w := by
  obtain ⟨hrd, hrs, hxr, hrm⟩ := mulWord_fields c op1 (nibbleAt w 16) b15 (nibbleAt w 8) op2 (w.getLsbD 5) (nibbleAt w 0)
  exact eq_of_fields [(28, 4), (16, 4), (8, 4), (5, 1), (0, 4)] ((mulWord_marked ..).trans h.symm)
    ⟨(mulWord_cond ..).trans hc.symm, hrd, hrs, hxr.trans (extractLsb'_one w 5).symm, hrm⟩ (by decide)

theorem satWord_eq {op : BitVec 7} (h : w &&& 0x0FE00030#32 = 0#4 ++ op ++ 0#5 ++ 0#4 ++ 0#5 ++ 0#1 ++ 0b01#2 ++ 0#4) :
    satWord c op (w.extractLsb' 16 5) (nibbleAt w 12) (w.extractLsb' 7 5) (if w.getLsbD 6 then .asr else .lsl)
      (nibbleAt w 0) = w := by
  obtain ⟨hsat, hrd, hshift, hsh, hrm⟩ := satWord_fields c op (w.extractLsb' 16 5) (nibbleAt w 12) (w.extractLsb' 7 5)
    (if w.getLsbD 6 then .asr else .lsl) (nibbleAt w 0)
  have hbit6 := hsh.trans ((ShiftType.bit_ite _).trans (extractLsb'_one w 6).symm)
  exact eq_of_fields [(28, 4), (16, 5), (12, 4), (7, 5), (6, 1), (0, 4)] ((satWord_fixed ..).trans h.symm)
    ⟨(satWord_cond ..).trans hc.symm, hsat, hrd, hshift, hbit6, hrm⟩ (by decide)

theorem sat16Word_eq {op : BitVec 7} (h : w &&& 0x0FF00FF0#32 = 0#4 ++ op ++ 0b0#1 ++ 0#4 ++ 0#4 ++ 0b11110011#8 ++ 0#4) :
    sat16Word c op (nibbleAt w 16) (nibbleAt w 12) (nibbleAt w 0) = w := by
  obtain ⟨hsat, hrd, hrm⟩ := sat16Word_fields c op (nibbleAt w 16) (nibbleAt w 12) (nibbleAt w 0)
  exact eq_of_fields [(28, 4), (16, 4), (12, 4), (0, 4)] ((sat16Word_fixed ..).trans h.symm)
    ⟨(sat16Word_cond ..).trans hc.symm, hsat, hrd, hrm⟩ (by decide)

theorem usadWord_eq (h : w &&& 0x0FF000F0#32 = 0#4 ++ 0b01111000#8 ++ 0#4 ++ 0#4 ++ 0#4 ++ 0b0001#4 ++ 0#4) :
    usadWord c (nibbleAt w 16) (nibbleAt w 12) (nibbleAt w 8) (nibbleAt w 0) = w := by
  obtain ⟨hrd, hrs, hrm⟩ := usadWord_fields c (nibbleAt w 16) (nibbleAt w 12) (nibbleAt w 8) (nibbleAt w 0)
  exact eq_of_fields [(28, 4), (16, 4), (12, 4), (8, 4), (0, 4)] ((usadWord_fixed ..).trans h.symm)
    ⟨(usadWord_cond ..).trans hc.symm, hrd, usadWord_marker .., hrs, hrm⟩ (by decide)

theorem usadWord_marked_eq {b15 : RegNum}
    (h : w &&& 0x0FF0F0F0#32 = 0#4 ++ 0b01111000#8 ++ 0#4 ++ b15 ++ 0#4 ++ 0b0001#4 ++ 0#4) :
    usadWord c (nibbleAt w 16) b15 (nibbleAt w 8) (nibbleAt w 0) = w := by
  obtain ⟨hrd, hrs, hrm⟩ := usadWord_fields c (nibbleAt w 16) b15 (nibbleAt w 8) (nibbleAt w 0)
  exact eq_of_fields [(28, 4), (16, 4), (8, 4), (0, 4)] ((usadWord_marked ..).trans h.symm)
    ⟨(usadWord_cond ..).trans hc.symm, hrd, hrs, hrm⟩ (by decide)

theorem pkhWord_eq {op : BitVec 3} (h : w &&& 0x0FF00070#32 = 0#4 ++ 0b01101000#8 ++ 0#4 ++ 0#4 ++ 0#5 ++ op ++ 0#4) :
    pkhWord c (nibbleAt w 16) (nibbleAt w 12) (w.extractLsb' 7 5) op (nibbleAt w 0) = w := by
  obtain ⟨hrn, hrd, hshift, hrm⟩ := pkhWord_fields c (nibbleAt w 16) (nibbleAt w 12) (w.extractLsb' 7 5) op (nibbleAt w 0)
  exact eq_of_fields [(28, 4), (16, 4), (12, 4), (7, 5), (0, 4)] ((pkhWord_fixed ..).trans h.symm)
    ⟨(pkhWord_cond ..).trans hc.symm, hrn, hrd, hshift, hrm⟩ (by decide)

theorem revWord_eq {opA opB : BitVec 1}
    (h : w &&& 0x0FFF0FF0#32 = 0#4 ++ 0b01101#5 ++ opA ++ 0b111111#6 ++ 0#4 ++ 0b1111#4 ++ opB ++ 0b011#3 ++ 0#4) :
    revWord c opA (nibbleAt w 12) opB (nibbleAt w 0) = w := by
  obtain ⟨hrd, hrm⟩ := revWord_fields c opA (nibbleAt w 12) opB (nibbleAt w 0)
  exact eq_of_fields [(28, 4), (12, 4), (0, 4)] ((revWord_fixed ..).trans h.symm)
    ⟨(revWord_cond ..).trans hc.symm, hrd, hrm⟩ (by decide)

/-- The row's fixed bits and the fields that the decoder reads under it are the whole word (R51, R56). -/
theorem encode_buildInstr {r : OpRow} (hr : r ∈ opcodeTable) (h : w &&& r.mask = r.value) :
    encode (buildInstr r.mnemonic c w) = w := by
  revert r
  simp only [opcodeTable, List.forall_mem_append, ← List.forall_iff_forall_mem]
  refine ⟨⟨⟨⟨⟨⟨⟨⟨?extend, ?select⟩, ?parallel⟩, ?multiply⟩, ?saturate⟩, ?saturate16⟩, ?absDiff⟩, ?pack⟩, ?reverse⟩
  case extend =>
    exact ⟨(extWord_eq hc ·), (extWord_eq hc ·), (extWord_eq hc ·), (extWord_eq hc ·), (extWord_eq hc ·), (extWord_eq hc ·),
      (extWord_marked_eq hc ·), (extWord_marked_eq hc ·), (extWord_marked_eq hc ·), (extWord_marked_eq hc ·),
      (extWord_marked_eq hc ·), (extWord_marked_eq hc ·)⟩
  case select => exact (selWord_eq hc ·)
  case parallel =>
    repeat refine ⟨(pasWord_eq hc ·), ?_⟩
    exact (pasWord_eq hc ·)
  case multiply =>
    exact ⟨(mulWord_marked_eq hc ·), (mulWord_eq hc ·), (mulWord_marked_eq hc ·), (mulWord_eq hc ·), (mulWord_eq hc ·),
      (mulWord_eq hc ·), (mulWord_marked_eq hc ·), (mulWord_eq hc ·), (mulWord_eq hc ·)⟩
  case saturate => exact ⟨(satWord_eq hc ·), (satWord_eq hc ·)⟩
  case saturate16 => exact ⟨(sat16Word_eq hc ·), (sat16Word_eq hc ·)⟩
  case absDiff => exact ⟨(usadWord_marked_eq hc ·), (usadWord_eq hc ·)⟩
  case pack => exact ⟨(pkhWord_eq hc ·), (pkhWord_eq hc ·)⟩
  case reverse => exact ⟨(revWord_eq hc ·), (revWord_eq hc ·), (revWord_eq hc ·)⟩

end

/-- Settles O21: a word that decodes is made of its row's fixed bits, its condition and its operands. -/
theorem encodeInvertsDecode : Obligations.EncodeInvertsDecode := by
  intro w i hi
  rcases decode_cases w with ⟨-, hdec⟩ | ⟨-, -, hdec⟩ | ⟨c, r, hc, hr, hm, hdec⟩
  · simp [hdec] at hi
  · simp [hdec] at hi
  · obtain rfl : buildInstr r.mnemonic c w = i := by simpa [hdec] using hi
    exact encode_buildInstr hc hr (OpRow.matchesWord_iff.1 hm).1

end Sys2Proof

/-! ## The wrapper of R52: when an instruction is refused and when it completes -/

namespace Sys2Proof.Machine

/-- Which shared operation an instruction is, on its own condition and its own register fields; the body is left open. -/
inductive RunsAs (i : Instr) (s : State) : Prop
  | unary {rd rm : RegNum} (f : Word → Effect) (hr : i.registers = [rd, rm]) (hd : i.destinations = [rd])
      (h : exec i s = unary i.cond rd rm s f)
  | binary {rd ra rb : RegNum} (f : Word → Word → Effect) (hr : i.registers = [rd, ra, rb]) (hd : i.destinations = [rd])
      (h : exec i s = binary i.cond rd ra rb s f)
  | ternary {rd ra rb rn : RegNum} (f : Word → Word → Word → Effect) (hr : i.registers = [rd, ra, rb, rn])
      (hd : i.destinations = [rd]) (h : exec i s = ternary i.cond rd ra rb rn s f)
  | longAccumulate {rdLo rdHi rm rs : RegNum} (f : Int → Word → Word → Int) (q : Int → Bool)
      (hr : i.registers = [rdLo, rdHi, rm, rs]) (hd : i.destinations = [rdLo, rdHi])
      (h : exec i s = longAccumulate i.cond rdLo rdHi rm rs s f q)

theorem runsAs (i : Instr) (s : State) : RunsAs i s := by
  cases i with
  | sxtb16 | sxtb | sxth | uxtb16 | uxtb | uxth | rev | rev16 | revsh | ssat | usat | ssat16 | usat16 =>
    exact .unary _ rfl rfl (by unfold exec; exact rfl)
  | smlad | smlsd | smmla | smmls | usada8 => exact .ternary _ rfl rfl (by unfold exec; exact rfl)
  | smlald | smlsld => exact .longAccumulate _ _ rfl rfl (by unfold exec; exact rfl)
  | _ => exact .binary _ rfl rfl (by unfold exec; exact rfl)

/-- Every instruction refuses a register field of 15, in any state and under any condition (R52, R53). -/
theorem exec_of_fifteen_mem {i : Instr} {s : State} (h : 15 ∈ i.registers) : exec i s = .refused .unpredictableR15 := by
  cases runsAs i s with
  | unary f hr _ hex =>
    rw [hex, unary_eq_refused]
    simpa [hr, eq_comm] using h
  | binary f hr _ hex =>
    rw [hex, binary_eq_refused]
    simpa [hr, eq_comm] using h
  | ternary f hr _ hex =>
    rw [hex, ternary_eq_refused]
    simpa [hr, eq_comm] using h
  | longAccumulate f q hr _ hex =>
    rw [hex, longAccumulate_eq_refused, if_pos]
    simpa [hr, eq_comm] using h

/-- Two equal destinations are refused where no register field is 15 (R203, R303). -/
theorem exec_of_equal_destinations {i : Instr} {s : State} {d : RegNum} (h : 15 ∉ i.registers)
    (hdest : i.destinations = [d, d]) : exec i s = .refused .unpredictableRdHiRdLo := by
  cases runsAs i s with
  | unary f _ hd | binary f _ hd | ternary f _ hd => simp [hd] at hdest
  | longAccumulate f q hr hd hex =>
    obtain ⟨rfl, rfl⟩ : _ = d ∧ _ = d := by simpa [hd] using hdest
    rw [hex, longAccumulate_eq_refused, if_neg]
    · exact ⟨rfl, rfl⟩
    · simpa [hr, eq_comm] using h

/-- A well-formed instruction completes (R52, R53, R203). -/
theorem exec_of_wellFormed {i : Instr} (h : i.wellFormed = true) (s : State) : ∃ t, exec i s = .next t := by
  obtain ⟨hregs, hdest⟩ : i.noR15 = true ∧ i.distinctDestinations = true := by simpa [Instr.wellFormed] using h
  have hreg : ∀ r ∈ i.registers, ∃ d, r = regNum d := fun r hr =>
    (regNum_cases r).resolve_left (by simpa using List.all_eq_true.1 hregs r hr)
  cases runsAs i s with
  | unary f hr _ hex =>
    simp only [hr, List.forall_mem_cons] at hreg
    obtain ⟨⟨d, rfl⟩, ⟨m, rfl⟩, -⟩ := hreg
    exact ⟨_, hex.trans (unary_regNum ..)⟩
  | binary f hr _ hex =>
    simp only [hr, List.forall_mem_cons] at hreg
    obtain ⟨⟨d, rfl⟩, ⟨a, rfl⟩, ⟨b, rfl⟩, -⟩ := hreg
    exact ⟨_, hex.trans (binary_regNum ..)⟩
  | ternary f hr _ hex =>
    simp only [hr, List.forall_mem_cons] at hreg
    obtain ⟨⟨d, rfl⟩, ⟨a, rfl⟩, ⟨b, rfl⟩, ⟨n, rfl⟩, -⟩ := hreg
    exact ⟨_, hex.trans (ternary_regNum ..)⟩
  | longAccumulate f q hr hd hex =>
    simp only [hr, List.forall_mem_cons] at hreg
    obtain ⟨⟨lo, rfl⟩, ⟨hi, rfl⟩, ⟨m, rfl⟩, ⟨k, rfl⟩, -⟩ := hreg
    have hne : hi ≠ lo := by simpa [Instr.distinctDestinations, hd] using hdest
    exact ⟨_, hex.trans (longAccumulate_regNum _ _ _ _ _ _ hne.symm)⟩

/-- Settles O31: the instruction completes, and under a failing condition it writes nothing. -/
theorem failedConditionOnlyAdvances : Obligations.FailedConditionOnlyAdvances := by
  intro i s hwf hc
  obtain ⟨t, ht⟩ := exec_of_wellFormed hwf s
  obtain ⟨w, -, rfl⟩ := exec_eq_next ht
  rw [ht, State.retired_failed hc]

/-- Settles O25: the fields listed there are the instruction's registers. -/
theorem registerFifteenRefused : Obligations.RegisterFifteenRefused := by
  intro c s
  and_intros
  all_goals
    intros
    refine exec_of_fifteen_mem ?_
    assumption

/-! ### The step of a fetched word -/

theorem buildInstr_mnemonic (m : Mnemonic) (c : Cond) (w : Word) : (buildInstr m c w).mnemonic = m := by
  cases m <;> rfl

theorem buildInstr_cond (m : Mnemonic) (c : Cond) (w : Word) : (buildInstr m c w).cond = c := by
  cases m <;> rfl

/-- Settles O30: the decoder's three answers, then what its instruction does. -/
theorem stepWrapper : Obligations.StepWrapper := by
  intro s w hf hv
  obtain ⟨hspace, hunlisted⟩ := decodeRejectsExactlyUnlistedWords w
  refine ⟨fun h15 => step_of_decode_error hf (hspace.2 h15),
    fun h15 hnone => step_of_decode_error hf (hunlisted.2 ⟨h15, hnone⟩), fun c r hc hr hm => ?_⟩
  have hdec := decode_of_matchesWord hc hr hm
  have hcond : (buildInstr r.mnemonic c w).cond = c := buildInstr_cond ..
  have hstep : step s = exec (buildInstr r.mnemonic c w) s := step_of_decode_ok hf hv hdec
  refine ⟨_, hdec, buildInstr_mnemonic .., hcond, hstep, ?_⟩
  rw [hstep]
  refine ⟨exec_of_fifteen_mem, fun _ => exec_of_equal_destinations, fun hwf hfail => ?_, fun hwf _ => ?_⟩
  · exact failedConditionOnlyAdvances _ s hwf (hcond.symm ▸ hfail)
  · obtain ⟨t, ht⟩ := exec_of_wellFormed hwf s
    obtain ⟨u, -, rfl⟩ := exec_eq_next ht
    exact ⟨_, ht, State.retired_pc ..⟩

end Sys2Proof.Machine

/-! ## The twelve extends, the unlisted encodings and the examples' words -/

namespace Sys2Proof

/-! ### One row, one reading: the decoder from a word's fixed bits -/

/-- A word with a row's fixed bits decodes to the row's instruction, where the row has no constraint (R55). -/
theorem decode_of_row {w value mask : Word} {c : Cond} {m : Mnemonic} (hc : nibbleAt w 28 = c.bits)
    (hr : ⟨m, value, mask, none⟩ ∈ opcodeTable) (h : w &&& mask = value) : decode w = .ok (buildInstr m c w) :=
  decode_of_matchesWord hc hr (OpRow.matchesWord_iff.2 ⟨h, by simp⟩)

/-- The same for a row whose constraint keeps one field from being 15 (R55). -/
theorem decode_of_constrained_row {w value mask : Word} {c : Cond} {m : Mnemonic} {lo : Nat} (hc : nibbleAt w 28 = c.bits)
    (hr : ⟨m, value, mask, some lo⟩ ∈ opcodeTable) (h : w &&& mask = value) (hlo : nibbleAt w lo ≠ 15) :
    decode w = .ok (buildInstr m c w) :=
  decode_of_matchesWord hc hr (OpRow.matchesWord_iff.2 ⟨h, by simpa using hlo⟩)

/-! ### Words that no row matches -/

theorem decode_of_no_row {w : Word} (h15 : nibbleAt w 28 ≠ 15) (h : ∀ r ∈ opcodeTable, ¬ r.matchesWord w = true) :
    decode w = .error .notInOpcodeTable := by
  obtain ⟨-, hunlisted⟩ := decodeRejectsExactlyUnlistedWords w
  exact hunlisted.2 ⟨h15, fun r hr => eq_false_of_ne_true (h r hr)⟩

/-- A field that a matching row's mask takes whole holds the row's value. -/
theorem OpRow.field_of_matchesWord {r : OpRow} {w : Word} (h : r.matchesWord w = true) {lo n : Nat}
    (hm : r.mask.extractLsb' lo n = BitVec.allOnes n) : w.extractLsb' lo n = r.value.extractLsb' lo n :=
  field_of_fixed (matchesWord_iff.1 h).1 hm

/-- Fixed bits under a mask, with or without a field that is not 15, in the form of a row, so that `OpRow.apart` compares them
with the table's rows. Matching reads no mnemonic, so SEL's stands for any. -/
def OpRow.pattern (p : Word × Word) (marker : Option Nat) : OpRow := ⟨.sel, p.2, p.1, marker⟩

theorem OpRow.pattern_matchesWord {w : Word} {p : Word × Word} (h : w &&& p.1 = p.2) :
    (pattern p none).matchesWord w = true :=
  matchesWord_iff.2 ⟨h, by simp [pattern]⟩

theorem OpRow.pattern_matchesWord_of_ne {w : Word} {p : Word × Word} {lo : Nat} (h : w &&& p.1 = p.2)
    (hlo : nibbleAt w lo ≠ 15) : (pattern p (some lo)).matchesWord w = true :=
  matchesWord_iff.2 ⟨h, by simpa [pattern] using hlo⟩

theorem OpRow.not_matchesWord_of_apart {q r : OpRow} {w : Word} (hq : q.matchesWord w = true) (h : q.apart r = true) :
    ¬ r.matchesWord w = true := fun hr => by
  simp [apart_eq_false hq hr] at h

/-- A word matches no row if it matches a pattern that is apart from every row. -/
theorem decode_of_apart {w : Word} {q : OpRow} (h15 : nibbleAt w 28 ≠ 15) (hq : q.matchesWord w = true)
    (hapart : opcodeTable.all q.apart = true) : decode w = .error .notInOpcodeTable :=
  decode_of_no_row h15 fun r hr => OpRow.not_matchesWord_of_apart hq (List.all_eq_true.1 hapart r hr)

/-- The same for a list of patterns that are all apart from every row. -/
theorem decode_of_mem_patterns {w : Word} {marker : Option Nat} {ps : List (Word × Word)} {p : Word × Word}
    (h15 : nibbleAt w 28 ≠ 15) (hps : ps.all (fun q => opcodeTable.all (OpRow.pattern q marker).apart) = true)
    (hp : p ∈ ps) (h : (OpRow.pattern p marker).matchesWord w = true) : decode w = .error .notInOpcodeTable :=
  decode_of_apart h15 h (List.all_eq_true.1 hps p hp)

/-- The USAD8 space is apart from every row but two, and those fix bits 7-4 at 1 (R240, R243). -/
theorem usadSpace_rows : ∀ r ∈ opcodeTable, (OpRow.pattern (0x0FF00000, 0x07800000) none).apart r = true ∨
    r.mask.extractLsb' 4 4 = BitVec.allOnes 4 ∧ r.value.extractLsb' 4 4 = 1 := by
  decide +kernel

/-- Every row fixes bits 27-23, at the value of one of four spaces (R57). -/
theorem opcodeTable_spaces : ∀ r ∈ opcodeTable, r.mask.extractLsb' 23 5 = BitVec.allOnes 5 ∧
    r.value.extractLsb' 23 5 ∈ [0b01100#5, 0b01101#5, 0b01110#5, 0b01111#5] := by
  decide +kernel

/-- Settles O23: each listed pattern is apart from all 69 rows; beside USAD8 and outside the four spaces, a field that the rows
fix holds another value. -/
theorem unlistedEncodingsRefused : Obligations.UnlistedEncodingsRefused := by
  intro w h15
  refine ⟨fun p hp h => ?_, fun h hfield => ?_, fun p hp h hfield => ?_, fun h hfield => ?_, fun hspace => ?_⟩
  · exact decode_of_mem_patterns h15 (by decide +kernel) hp (OpRow.pattern_matchesWord h)
  · exact decode_of_apart h15 (OpRow.pattern_matchesWord_of_ne (p := (_, _)) h hfield) (by decide +kernel)
  · exact decode_of_mem_patterns h15 (by decide +kernel) hp (OpRow.pattern_matchesWord_of_ne h hfield)
  · refine decode_of_no_row h15 fun r hr hrw => ?_
    rcases usadSpace_rows r hr with hapart | ⟨hmask, hone⟩
    · exact OpRow.not_matchesWord_of_apart (OpRow.pattern_matchesWord h) hapart hrw
    · exact hfield ((OpRow.field_of_matchesWord hrw hmask).trans hone)
  · refine decode_of_no_row h15 fun r hr hrw => hspace ?_
    obtain ⟨hmask, hvalue⟩ := opcodeTable_spaces r hr
    rwa [OpRow.field_of_matchesWord hrw hmask]

/-- Settles O24, by evaluating the decoder on the eight words. -/
theorem exampleWordsDecode : Obligations.ExampleWordsDecode :=
  ⟨rfl, rfl, rfl, rfl, rfl, rfl, rfl, rfl⟩

end Sys2Proof

namespace Sys2Proof.Machine

/-! ### An instruction that writes one register and no flag -/

theorem State.apply_value (s : State) (d : GPR) (v : Word) : s.apply d { value := v } = { s with regs := s.regs.set d v } :=
  State.raiseQ_false _

/-- An instruction `Rd <- f(x[Rm])` that writes no flag changes `Rd` and `pc` alone (R52). -/
theorem exec_of_unary_value {i : Instr} {c : Cond} {d m : GPR} {s : State} {f : Word → Word} {v : Word}
    (h : exec i s = unary c (regNum d) (regNum m) s fun x => { value := f x }) (hv : f s.regs[m] = v) :
    exec i s = .next (s.retired c { s with regs := s.regs.set d v }) := by
  rw [h, unary_regNum, complete_eq_retired (State.apply_pc ..), State.apply_value]
  exact hv ▸ rfl

/-- An instruction `Rd <- f(x[Ra], x[Rb])` that writes no flag changes `Rd` and `pc` alone (R52). -/
theorem exec_of_binary_value {i : Instr} {c : Cond} {d a b : GPR} {s : State} {f : Word → Word → Word} {v : Word}
    (h : exec i s = binary c (regNum d) (regNum a) (regNum b) s fun x y => { value := f x y })
    (hv : f s.regs[a] s.regs[b] = v) : exec i s = .next (s.retired c { s with regs := s.regs.set d v }) := by
  rw [h, binary_regNum, complete_eq_retired (State.apply_pc ..), State.apply_value]
  exact hv ▸ rfl

/-- The print of an instruction without a variant letter, whose operands are its registers and then a suffix (R59). -/
theorem printInstr_registers {i : Instr} {suffix : String} (hv : variantLetter i = "")
    (ho : operandText i = operandList (i.registers.map regName) ++ suffix) :
    printInstr i =
      mnemonicName i.mnemonic ++ condSuffix i.cond ++ " " ++ operandList (i.registers.map regName) ++ suffix := by
  rw [printInstr, hv, ho, String.append_empty, ← String.append_assoc]

/-- Settles O1: each of the six is a `binary` that writes its value and no flag, its row keeps `Rn` from being 15, and its print
is its registers with the rotation. -/
theorem extendWithAdditionResults : Obligations.ExtendWithAdditionResults := by
  refine ⟨fun c d n m rot s => ?_, fun w c hc => ?_, fun c rd rn rm rot => ?_⟩
  · and_intros
    all_goals
      refine exec_of_binary_value (by unfold exec; exact rfl) ?_
      rfl
  · exact ⟨decode_of_constrained_row (m := .sxtab16) hc (by decide), decode_of_constrained_row (m := .sxtab) hc (by decide),
      decode_of_constrained_row (m := .sxtah) hc (by decide), decode_of_constrained_row (m := .uxtab16) hc (by decide),
      decode_of_constrained_row (m := .uxtab) hc (by decide), decode_of_constrained_row (m := .uxtah) hc (by decide)⟩
  · and_intros
    all_goals exact printInstr_registers rfl rfl

/-! ### A mask of whole bytes clears the others (R111 to R113) -/

/-- A low part zero-extended to the whole width is the word AND the part's mask. -/
theorem zeroExtend_extractLsb'_zero {w : Nat} (v : BitVec w) (k : Nat) :
    (v.extractLsb' 0 k).zeroExtend w = v &&& (BitVec.allOnes k).zeroExtend w := by
  refine BitVec.eq_of_getLsbD_eq fun i hi => ?_
  simp [hi, Bool.and_comm]

/-- A word is its two halfwords (R8, R10). -/
theorem halves_hi16_lo16 (v : Word) : halves (hi16 v) (lo16 v) = v := by
  unfold halves hi16 lo16
  rw [BitVec.extractLsb'_append_extractLsb'_eq_extractLsb' (start₂ := 16) (start₁ := 0) (len₁ := 16) rfl]
  exact BitVec.extractLsb'_eq_self

/-- The low byte of a 16-bit part of a word is the byte where that part starts. -/
theorem extractLsb'_eight_of_half (v : Word) (lo : Nat) :
    v.extractLsb' lo 8 = (v.extractLsb' lo 16).extractLsb' 0 8 := by
  refine BitVec.eq_of_getLsbD_eq fun i hi => ?_
  have : i < 16 := by omega
  simp [hi, this]

theorem halves_zeroExtend_byteAt (v : Word) :
    halves ((byteAt v 2).zeroExtend 16) ((byteAt v 0).zeroExtend 16) = v &&& 0x00FF00FF := by
  have hbyte : ∀ lo, (v.extractLsb' lo 8).zeroExtend 16 = v.extractLsb' lo 16 &&& 0x00FF := fun lo => by
    rw [extractLsb'_eight_of_half]
    exact zeroExtend_extractLsb'_zero _ 8
  calc halves ((byteAt v 2).zeroExtend 16) ((byteAt v 0).zeroExtend 16)
      = halves (hi16 v &&& 0x00FF) (lo16 v &&& 0x00FF) := congrArg₂ halves (hbyte 16) (hbyte 0)
    _ = halves (hi16 v) (lo16 v) &&& halves 0x00FF 0x00FF := BitVec.and_append.symm
    _ = v &&& 0x00FF00FF := by rw [halves_hi16_lo16]; rfl

theorem zeroExtend_byteAt_zero (v : Word) : (byteAt v 0).zeroExtend 32 = v &&& 0x000000FF :=
  zeroExtend_extractLsb'_zero v 8

theorem zeroExtend_lo16 (v : Word) : (lo16 v).zeroExtend 32 = v &&& 0x0000FFFF :=
  zeroExtend_extractLsb'_zero v 16

/-- Settles O2: each of the six is a `unary` that writes its value and no flag; the unsigned three
extensions are the masks of R111 to R113. -/
theorem extendWithoutAdditionResults : Obligations.ExtendWithoutAdditionResults := by
  refine ⟨fun c d m rot s => ?_, fun w c hc => ?_, fun c rd rm rot => ?_⟩
  · and_intros
    all_goals refine exec_of_unary_value (by unfold exec; exact rfl) ?_
    · rfl
    · rfl
    · rfl
    · exact halves_zeroExtend_byteAt _
    · exact zeroExtend_byteAt_zero _
    · exact zeroExtend_lo16 _
  · exact ⟨decode_of_row (m := .sxtb16) hc (by decide), decode_of_row (m := .sxtb) hc (by decide),
      decode_of_row (m := .sxth) hc (by decide), decode_of_row (m := .uxtb16) hc (by decide),
      decode_of_row (m := .uxtb) hc (by decide), decode_of_row (m := .uxth) hc (by decide)⟩
  · and_intros
    all_goals exact printInstr_registers rfl rfl

end Sys2Proof.Machine

/-! ## Select bytes (R120, R121) -/

namespace Sys2Proof.Machine

/-- An instruction `Rd <- f(x[Ra], x[Rb])` with registers in its fields completes, with its effect under R52. -/
theorem exec_of_binary {i : Instr} {c : Cond} {d a b : GPR} {s : State} {f : Word → Word → Effect}
    (h : exec i s = binary c (regNum d) (regNum a) (regNum b) s f) :
    exec i s = .next (s.retired c (s.apply d (f s.regs[a] s.regs[b]))) := by
  rw [h, binary_regNum, complete_eq_retired (State.apply_pc ..)]
  rfl

/-- The print of an instruction whose operands are its registers and nothing else (R59). -/
theorem printInstr_registers_only {i : Instr} (hv : variantLetter i = "")
    (ho : operandText i = operandList (i.registers.map regName)) :
    printInstr i = mnemonicName i.mnemonic ++ condSuffix i.cond ++ " " ++ operandList (i.registers.map regName) := by
  rw [printInstr_registers (suffix := "") hv (by rw [ho, String.append_empty]), String.append_empty]

/-- The word that SEL writes (R120). -/
def selectedWord (ge : BitVec 4) (n m : Word) : Word :=
  bytes (selectedByte ge n m 3) (selectedByte ge n m 2) (selectedByte ge n m 1) (selectedByte ge n m 0)

/-- What SEL answers with registers in its fields: `Rd` and `pc` alone change. -/
theorem exec_sel (c : Cond) (d n m : GPR) (s : State) :
    exec (.sel c (regNum d) (regNum n) (regNum m)) s =
      .next (s.retired c { s with regs := s.regs.set d (selectedWord s.cpsr.ge s.regs[n] s.regs[m]) }) :=
  exec_of_binary_value (by unfold exec; exact rfl) rfl

/-- Settles O3: SEL is a `binary` that writes its value and no flag, its row has no constraint, and its print is its registers. -/
theorem selectBytesResult : Obligations.SelectBytesResult :=
  ⟨exec_sel, fun _ _ hc => decode_of_row (m := .sel) hc (by decide), fun _ _ _ _ => printInstr_registers_only rfl rfl⟩

/-! ### The four bytes of a word and the four GE flags -/

/-- Byte `i` of a word put together from bytes (R8). -/
theorem byteAt_bytes (b : Nat → Byte) {i : Nat} (hi : i < 4) : byteAt (bytes (b 3) (b 2) (b 1) (b 0)) i = b i := by
  unfold byteAt bytes
  match i, hi with
  | 0, _ | 1, _ | 2, _ =>
    repeat rw [BitVec.extractLsb'_append_eq_of_le (by decide)]
    exact BitVec.extractLsb'_append_eq_right
  | 3, _ =>
    repeat rw [BitVec.extractLsb'_append_eq_of_le (by decide)]
    exact BitVec.extractLsb'_eq_self

/-- Flag `i` of the GE flags that four byte lanes write (R25). -/
theorem getLsbD_geBits (p : Nat → Bool) {i : Nat} (hi : i < 4) : (geBits (p 3) (p 2) (p 1) (p 0)).getLsbD i = p i := by
  unfold geBits
  match i, hi with
  | 0, _ | 1, _ | 2, _ | 3, _ =>
    repeat rw [BitVec.getLsbD_append]
    simp

theorem byteAt_selectedWord (ge : BitVec 4) (n m : Word) {i : Nat} (hi : i < 4) :
    byteAt (selectedWord ge n m) i = selectedByte ge n m i :=
  byteAt_bytes (selectedByte ge n m) hi

/-! ### USUB8 then SEL: the unsigned minimum (R121) -/

/-- A subtraction has no borrow exactly when the second operand is not above the first (R160). -/
theorem noBorrowGe_uint_sub {w : Nat} (x y : BitVec w) : noBorrowGe (uint x - uint y) = decide (y.toNat ≤ x.toNat) := by
  simp [noBorrowGe, uint]

/-- The GE flags of USUB8: each tells that the byte of the first operand is not below that of the second (R167). -/
theorem getLsbD_ge_wrap8_sub8 (n m : Word) (g : BitVec 4) {i : Nat} (hi : i < 4) :
    ((wrap8 noBorrowGe (sub8 uint n m)).ge.getD g).getLsbD i = decide ((byteAt m i).toNat ≤ (byteAt n i).toNat) :=
  (getLsbD_geBits (fun k => noBorrowGe (uint (byteAt n k) - uint (byteAt m k))) hi).trans (noBorrowGe_uint_sub ..)

/-- USUB8 under a passing condition: it leaves every register but `Rd`, and GE holds the comparison of the bytes (R167). -/
theorem exec_usub8_compares {c : Cond} {s : State} (hc : conditionPassed c s.cpsr = true) (d n m : GPR) :
    ∃ t, exec (.usub8 c (regNum d) (regNum n) (regNum m)) s = .next t ∧ (∀ r ≠ d, t.regs[r] = s.regs[r]) ∧
      ∀ i < 4, t.cpsr.ge.getLsbD i = decide ((byteAt s.regs[m] i).toNat ≤ (byteAt s.regs[n] i).toNat) := by
  refine ⟨_, exec_of_binary (f := fun x y => wrap8 noBorrowGe (sub8 uint x y)) (by unfold exec; exact rfl), fun r hr => ?_,
    fun i hi => ?_⟩
  · rw [State.retired_passed hc]
    exact s.reg_apply_ne _ hr
  · rw [State.retired_passed hc, State.apply_ge, getLsbD_ge_wrap8_sub8 _ _ _ hi]

/-- SEL under a passing condition: it leaves every register but `Rd`, whose bytes are the selected ones (R120). -/
theorem exec_sel_selects {c : Cond} {s : State} (hc : conditionPassed c s.cpsr = true) (d n m : GPR) :
    ∃ t, exec (.sel c (regNum d) (regNum n) (regNum m)) s = .next t ∧ (∀ r ≠ d, t.regs[r] = s.regs[r]) ∧
      ∀ i < 4, byteAt t.regs[d] i = selectedByte s.cpsr.ge s.regs[n] s.regs[m] i := by
  refine ⟨_, exec_sel .., fun r hr => ?_, fun i hi => ?_⟩
  · rw [State.retired_passed hc]
    exact s.reg_setReg_ne _ hr
  · rw [State.retired_passed hc, ← byteAt_selectedWord _ _ _ hi]
    exact congrArg (byteAt · i) (s.reg_setReg_same d _)

/-- A byte chosen by a flag that tells whether the first one is not above the second is the smaller of the two. -/
theorem toNat_selectedByte_eq_min {ge : BitVec 4} {n m : Word} {i : Nat}
    (h : ge.getLsbD i = decide ((byteAt n i).toNat ≤ (byteAt m i).toNat)) :
    (selectedByte ge n m i).toNat = min (byteAt n i).toNat (byteAt m i).toNat := by
  simp only [selectedByte, h, decide_eq_true_eq, apply_ite BitVec.toNat, min_def]

/-- Settles O47: USUB8 leaves the operands and puts the comparison in GE, by which SEL chooses the smaller byte. -/
theorem usub8ThenSelIsUnsignedMinimum : Obligations.Usub8ThenSelIsUnsignedMinimum := by
  intro d a b s hda hdb
  obtain ⟨t, ht, hkept, hge⟩ := exec_usub8_compares (c := .al) (s := s) rfl d a b
  obtain ⟨u, hu, hkept', hbyte⟩ := exec_sel_selects (c := .al) (s := t) rfl d b a
  rw [hkept a hda.symm, hkept b hdb.symm] at hbyte
  refine ⟨t, u, ht, hu, fun i hi => ?_, hge, (hkept' a hda.symm).trans (hkept a hda.symm),
    (hkept' b hdb.symm).trans (hkept b hdb.symm)⟩
  rw [hbyte i hi, toNat_selectedByte_eq_min (hge i hi), min_comm]

end Sys2Proof.Machine

/-! ## The signed parallel additions and subtractions (R130 to R149) -/

namespace Sys2Proof.Machine

/-! ### An instruction that writes one register and the GE flags -/

theorem State.apply_value_ge (s : State) (d : GPR) (v : Word) (g : BitVec 4) :
    s.apply d { value := v, ge := some g } = { s with regs := s.regs.set d v, cpsr := { s.cpsr with ge := g } } :=
  congrArg (State.setGE · g) (State.raiseQ_false _)

/-- An instruction `Rd, GE <- f(x[Ra], x[Rb]), g(x[Ra], x[Rb])` changes `Rd`, GE and `pc` alone (R25, R52). -/
theorem exec_of_binary_value_ge {i : Instr} {c : Cond} {d a b : GPR} {s : State} {f : Word → Word → Word}
    {g : Word → Word → BitVec 4} {v : Word} {ge : BitVec 4}
    (h : exec i s = binary c (regNum d) (regNum a) (regNum b) s fun x y => { value := f x y, ge := some (g x y) })
    (hv : f s.regs[a] s.regs[b] = v) (hg : g s.regs[a] s.regs[b] = ge) :
    exec i s = .next (s.retired c { s with regs := s.regs.set d v, cpsr := { s.cpsr with ge := ge } }) := by
  rw [exec_of_binary h, State.apply_value_ge, hv, hg]

/-- Settles O4: each of the six is a `binary` that writes its wrapped lanes and the signs of the exact results, its row has no
constraint, and its print is its registers. -/
theorem signedParallelResults : Obligations.SignedParallelResults := by
  refine ⟨fun c d n m s => ?_, fun w c hc => ?_, fun c rd rn rm => ?_⟩
  · and_intros
    all_goals
      refine exec_of_binary_value_ge (by unfold exec; exact rfl) ?_ ?_
      · rfl
      · rfl
  · exact ⟨decode_of_row (m := .sadd16) hc (by decide), decode_of_row (m := .saddsubx) hc (by decide),
      decode_of_row (m := .ssubaddx) hc (by decide), decode_of_row (m := .ssub16) hc (by decide),
      decode_of_row (m := .sadd8) hc (by decide), decode_of_row (m := .ssub8) hc (by decide)⟩
  · and_intros
    all_goals exact printInstr_registers_only rfl rfl

/-- Settles O5: each of the six is a `binary` that writes its clamped lanes and no flag. -/
theorem signedSaturatingParallelResults : Obligations.SignedSaturatingParallelResults := by
  refine ⟨fun c d n m s => ?_, fun w c hc => ?_, fun c rd rn rm => ?_⟩
  · and_intros
    all_goals
      refine exec_of_binary_value (by unfold exec; exact rfl) ?_
      rfl
  · exact ⟨decode_of_row (m := .qadd16) hc (by decide), decode_of_row (m := .qaddsubx) hc (by decide),
      decode_of_row (m := .qsubaddx) hc (by decide), decode_of_row (m := .qsub16) hc (by decide),
      decode_of_row (m := .qadd8) hc (by decide), decode_of_row (m := .qsub8) hc (by decide)⟩
  · and_intros
    all_goals exact printInstr_registers_only rfl rfl

/-- Settles O6: each of the six is a `binary` that writes its halved lanes and no flag. -/
theorem signedHalvingParallelResults : Obligations.SignedHalvingParallelResults := by
  refine ⟨fun c d n m s => ?_, fun w c hc => ?_, fun c rd rn rm => ?_⟩
  · and_intros
    all_goals
      refine exec_of_binary_value (by unfold exec; exact rfl) ?_
      rfl
  · exact ⟨decode_of_row (m := .shadd16) hc (by decide), decode_of_row (m := .shaddsubx) hc (by decide),
      decode_of_row (m := .shsubaddx) hc (by decide), decode_of_row (m := .shsub16) hc (by decide),
      decode_of_row (m := .shadd8) hc (by decide), decode_of_row (m := .shsub8) hc (by decide)⟩
  · and_intros
    all_goals exact printInstr_registers_only rfl rfl

end Sys2Proof.Machine

/-! ## The numbers in the lanes of a parallel addition or subtraction -/

namespace Sys2Proof.Machine

/-! ### An exact result that fits its lane is read back (R8) -/

theorem sint_trunc_of_fits {w : Nat} (hw : 0 < w) {n : Int} (hlo : -2 ^ (w - 1) ≤ n) (hhi : n < 2 ^ (w - 1)) :
    sint (trunc w n) = n :=
  BitVec.toInt_ofInt_eq_self hw hlo hhi

theorem uint_trunc_of_fits {w : Nat} {n : Int} (hlo : 0 ≤ n) (hhi : n < 2 ^ w) : uint (trunc w n) = n := by
  have hmod : n % (2 ^ w : Nat) = n := Int.emod_eq_of_lt hlo (by exact_mod_cast hhi)
  unfold uint trunc
  rw [BitVec.toNat_ofInt, hmod, Int.toNat_of_nonneg hlo]

theorem uint_bounds {w : Nat} (x : BitVec w) : 0 ≤ uint x ∧ uint x < 2 ^ w :=
  ⟨Int.natCast_nonneg _, by unfold uint; exact_mod_cast x.isLt⟩

theorem sint_bounds {w : Nat} (x : BitVec w) : -2 ^ w ≤ 2 * sint x ∧ 2 * sint x < 2 ^ w :=
  ⟨BitVec.le_two_mul_toInt, BitVec.two_mul_toInt_lt⟩

/-- The unsigned range of a lane is twice as long as the positive half of its signed range. -/
theorem two_pow_eq_two_mul {w : Nat} (hw : 0 < w) : (2 : Int) ^ w = 2 * 2 ^ (w - 1) := by
  rw [← pow_succ', Nat.sub_add_cancel hw]

/-! ### A saturated lane (R138, R168) -/

theorem clamp_eq_max_min {lo hi : Int} (h : lo ≤ hi) (n : Int) : clamp lo hi n = max lo (min hi n) := by
  unfold clamp
  split_ifs <;> omega

theorem signedSat_eq_max_min (n : Int) (w : Nat) :
    signedSat n w = max (-2 ^ (w - 1)) (min (2 ^ (w - 1) - 1) n) := by
  have hpos : (0 : Int) < 2 ^ (w - 1) := by positivity
  exact clamp_eq_max_min (by omega) n

theorem unsignedSat_eq_max_min (n : Int) (w : Nat) : unsignedSat n w = max 0 (min (2 ^ w - 1) n) := by
  have hpos : (0 : Int) < 2 ^ w := by positivity
  exact clamp_eq_max_min (by omega) n

/-- A signed saturated lane holds the exact result clamped to the signed range. -/
theorem sint_trunc_signedSat {w : Nat} (hw : 0 < w) (n : Int) :
    sint (trunc w (signedSat n w)) = max (-2 ^ (w - 1)) (min (2 ^ (w - 1) - 1) n) := by
  have hpos : (0 : Int) < 2 ^ (w - 1) := by positivity
  rw [signedSat_eq_max_min, sint_trunc_of_fits hw] <;> omega

/-- An unsigned saturated lane holds the exact result clamped to the unsigned range. -/
theorem uint_trunc_unsignedSat (w : Nat) (n : Int) :
    uint (trunc w (unsignedSat n w)) = max 0 (min (2 ^ w - 1) n) := by
  have hpos : (0 : Int) < 2 ^ w := by positivity
  rw [unsignedSat_eq_max_min, uint_trunc_of_fits] <;> omega

/-- An unsigned sum is clamped from above alone. -/
theorem uint_trunc_unsignedSat_add {w : Nat} (x y : BitVec w) :
    uint (trunc w (unsignedSat (uint x + uint y) w)) = min (2 ^ w - 1) (uint x + uint y) := by
  obtain ⟨hxlo, hxhi⟩ := uint_bounds x
  obtain ⟨hylo, -⟩ := uint_bounds y
  rw [uint_trunc_unsignedSat, max_eq_right (by omega)]

/-- An unsigned difference is clamped from below alone. -/
theorem uint_trunc_unsignedSat_sub {w : Nat} (x y : BitVec w) :
    uint (trunc w (unsignedSat (uint x - uint y) w)) = max 0 (uint x - uint y) := by
  obtain ⟨-, hxhi⟩ := uint_bounds x
  obtain ⟨hylo, -⟩ := uint_bounds y
  rw [uint_trunc_unsignedSat, min_eq_right (by omega)]

/-! ### A halved lane (R144, R174) -/

/-- Half of a number that needs one bit more than the lane fits the lane. -/
theorem sint_trunc_halve {w : Nat} (hw : 0 < w) {n : Int} (hlo : -2 ^ w ≤ n) (hhi : n < 2 ^ w) :
    sint (trunc w (halve n)) = n / 2 := by
  rw [two_pow_eq_two_mul hw] at hlo hhi
  unfold halve
  exact sint_trunc_of_fits hw (by omega) (by omega)

theorem sint_trunc_halve_add {w : Nat} (hw : 0 < w) (x y : BitVec w) :
    sint (trunc w (halve (sint x + sint y))) = (sint x + sint y) / 2 := by
  obtain ⟨hxlo, hxhi⟩ := sint_bounds x
  obtain ⟨hylo, hyhi⟩ := sint_bounds y
  exact sint_trunc_halve hw (by omega) (by omega)

theorem sint_trunc_halve_sub {w : Nat} (hw : 0 < w) (x y : BitVec w) :
    sint (trunc w (halve (sint x - sint y))) = (sint x - sint y) / 2 := by
  obtain ⟨hxlo, hxhi⟩ := sint_bounds x
  obtain ⟨hylo, hyhi⟩ := sint_bounds y
  exact sint_trunc_halve hw (by omega) (by omega)

theorem uint_trunc_halve_add {w : Nat} (x y : BitVec w) :
    uint (trunc w (halve (uint x + uint y))) = (uint x + uint y) / 2 := by
  obtain ⟨hxlo, hxhi⟩ := uint_bounds x
  obtain ⟨hylo, hyhi⟩ := uint_bounds y
  unfold halve
  exact uint_trunc_of_fits (by omega) (by omega)

/-- Half the difference of two unsigned lanes may be negative: it is read back as a signed number. -/
theorem sint_trunc_halve_uint_sub {w : Nat} (hw : 0 < w) (x y : BitVec w) :
    sint (trunc w (halve (uint x - uint y))) = (uint x - uint y) / 2 := by
  obtain ⟨hxlo, hxhi⟩ := uint_bounds x
  obtain ⟨hylo, hyhi⟩ := uint_bounds y
  exact sint_trunc_halve hw (by omega) (by omega)

/-! ### The lanes that an instruction leaves in `Rd` -/

/-- Halfword `k` of a word: `lo16` is halfword 0, `hi16` is halfword 1 (R10). -/
def halfAt (v : Word) (k : Nat) : Half := v.extractLsb' (16 * k) 16

/-- Halfword `k` of a word put together from halfwords (R8). -/
theorem halfAt_halves (h : Nat → Half) {k : Nat} (hk : k < 2) : halfAt (halves (h 1) (h 0)) k = h k := by
  unfold halfAt halves
  match k, hk with
  | 0, _ => exact BitVec.extractLsb'_append_eq_right
  | 1, _ =>
    rw [BitVec.extractLsb'_append_eq_of_le (by decide)]
    exact BitVec.extractLsb'_eq_self

/-- Where its condition passes, an instruction `Rd <- f(x[Ra], x[Rb])` that writes no flag completes with the flags unchanged
and with what the new value of `Rd` implies for each of its lanes. -/
theorem exec_of_binary_value_passed {i : Instr} {c : Cond} {d a b : GPR} {s : State} {f : Word → Word → Word} {lanes : Nat}
    {P : State → Nat → Prop} (hc : conditionPassed c s.cpsr = true)
    (h : exec i s = binary c (regNum d) (regNum a) (regNum b) s fun x y => { value := f x y })
    (hP : ∀ t : State, t.regs[d] = f s.regs[a] s.regs[b] → ∀ k < lanes, P t k) :
    ∃ t, exec i s = .next t ∧ t.cpsr = s.cpsr ∧ ∀ k < lanes, P t k := by
  refine ⟨_, exec_of_binary_value h rfl, ?_⟩
  rw [State.retired_passed hc]
  exact ⟨rfl, hP _ (s.reg_setReg_same d _)⟩

section
variable {i : Instr} {c : Cond} {d n m : GPR} {s : State} {P : State → Nat → Prop}

/-- Halfword `k` of `Rd` is the narrowed exact result `lane` of the halfwords `k` of the operands. -/
theorem exec_of_halfLanes (lane : Half → Half → Int) {narrow : Int → Half} (hc : conditionPassed c s.cpsr = true)
    (h : exec i s = binary c (regNum d) (regNum n) (regNum m) s fun x y =>
      { value := HalfLanes.pack ⟨lane (hi16 x) (hi16 y), lane (lo16 x) (lo16 y)⟩ narrow })
    (hP : ∀ (t : State) k, halfAt t.regs[d] k = narrow (lane (halfAt s.regs[n] k) (halfAt s.regs[m] k)) → P t k) :
    ∃ t, exec i s = .next t ∧ t.cpsr = s.cpsr ∧ ∀ k < 2, P t k :=
  exec_of_binary_value_passed hc h fun t ht k hk => hP t k <|
    ht ▸ halfAt_halves (fun j => narrow (lane (halfAt s.regs[n] j) (halfAt s.regs[m] j))) hk

/-- Byte `k` of `Rd` is the narrowed exact result `lane` of the bytes `k` of the operands. -/
theorem exec_of_byteLanes (lane : Byte → Byte → Int) {narrow : Int → Byte} (hc : conditionPassed c s.cpsr = true)
    (h : exec i s = binary c (regNum d) (regNum n) (regNum m) s fun x y =>
      { value := ByteLanes.pack ⟨lane (byteAt x 3) (byteAt y 3), lane (byteAt x 2) (byteAt y 2),
          lane (byteAt x 1) (byteAt y 1), lane (byteAt x 0) (byteAt y 0)⟩ narrow })
    (hP : ∀ (t : State) k, byteAt t.regs[d] k = narrow (lane (byteAt s.regs[n] k) (byteAt s.regs[m] k)) → P t k) :
    ∃ t, exec i s = .next t ∧ t.cpsr = s.cpsr ∧ ∀ k < 4, P t k :=
  exec_of_binary_value_passed hc h fun t ht k hk => hP t k <|
    ht ▸ byteAt_bytes (fun j => narrow (lane (byteAt s.regs[n] j) (byteAt s.regs[m] j))) hk

end

/-- Settles O48: each lane of the eight is the saturated exact result, and saturation is the clamp that the lane's range asks
for; an unsigned sum needs no lower bound and an unsigned difference no upper one. -/
theorem saturatedLanesAreClamped : Obligations.SaturatedLanesAreClamped := by
  intro c d n m s hc
  refine ⟨?qadd16, ?qsub16, ?qadd8, ?qsub8, ?uqadd16, ?uqsub16, ?uqadd8, ?uqsub8⟩
  case qadd16 =>
    refine exec_of_halfLanes (fun x y => sint x + sint y) hc (by unfold exec; exact rfl) fun _ _ h => ?_
    exact (congrArg sint h).trans (sint_trunc_signedSat (by decide) _)
  case qsub16 =>
    refine exec_of_halfLanes (fun x y => sint x - sint y) hc (by unfold exec; exact rfl) fun _ _ h => ?_
    exact (congrArg sint h).trans (sint_trunc_signedSat (by decide) _)
  case qadd8 =>
    refine exec_of_byteLanes (fun x y => sint x + sint y) hc (by unfold exec; exact rfl) fun _ _ h => ?_
    exact (congrArg sint h).trans (sint_trunc_signedSat (by decide) _)
  case qsub8 =>
    refine exec_of_byteLanes (fun x y => sint x - sint y) hc (by unfold exec; exact rfl) fun _ _ h => ?_
    exact (congrArg sint h).trans (sint_trunc_signedSat (by decide) _)
  case uqadd16 =>
    refine exec_of_halfLanes (fun x y => uint x + uint y) hc (by unfold exec; exact rfl) fun _ _ h => ?_
    exact (congrArg uint h).trans (uint_trunc_unsignedSat_add _ _)
  case uqsub16 =>
    refine exec_of_halfLanes (fun x y => uint x - uint y) hc (by unfold exec; exact rfl) fun _ _ h => ?_
    exact (congrArg uint h).trans (uint_trunc_unsignedSat_sub _ _)
  case uqadd8 =>
    refine exec_of_byteLanes (fun x y => uint x + uint y) hc (by unfold exec; exact rfl) fun _ _ h => ?_
    exact (congrArg uint h).trans (uint_trunc_unsignedSat_add _ _)
  case uqsub8 =>
    refine exec_of_byteLanes (fun x y => uint x - uint y) hc (by unfold exec; exact rfl) fun _ _ h => ?_
    exact (congrArg uint h).trans (uint_trunc_unsignedSat_sub _ _)

/-- Twice the floor of half a number is the number or one less. -/
theorem halved_of_eq {r e : Int} (h : r = e / 2) : r = e / 2 ∧ (2 * r = e ∨ 2 * r = e - 1) := by
  omega

/-- Settles O49: each lane of the eight is the halved exact result, which fits the lane it is read back from. -/
theorem halvingFitsItsLane : Obligations.HalvingFitsItsLane := by
  intro c d n m s hc
  refine ⟨?shadd16, ?shsub16, ?shadd8, ?shsub8, ?uhadd16, ?uhsub16, ?uhadd8, ?uhsub8⟩
  case shadd16 =>
    refine exec_of_halfLanes (fun x y => sint x + sint y) hc (by unfold exec; exact rfl) fun _ _ h => ?_
    exact halved_of_eq ((congrArg sint h).trans (sint_trunc_halve_add (by decide) _ _))
  case shsub16 =>
    refine exec_of_halfLanes (fun x y => sint x - sint y) hc (by unfold exec; exact rfl) fun _ _ h => ?_
    exact halved_of_eq ((congrArg sint h).trans (sint_trunc_halve_sub (by decide) _ _))
  case shadd8 =>
    refine exec_of_byteLanes (fun x y => sint x + sint y) hc (by unfold exec; exact rfl) fun _ _ h => ?_
    exact halved_of_eq ((congrArg sint h).trans (sint_trunc_halve_add (by decide) _ _))
  case shsub8 =>
    refine exec_of_byteLanes (fun x y => sint x - sint y) hc (by unfold exec; exact rfl) fun _ _ h => ?_
    exact halved_of_eq ((congrArg sint h).trans (sint_trunc_halve_sub (by decide) _ _))
  case uhadd16 =>
    refine exec_of_halfLanes (fun x y => uint x + uint y) hc (by unfold exec; exact rfl) fun _ _ h => ?_
    exact halved_of_eq ((congrArg uint h).trans (uint_trunc_halve_add _ _))
  case uhsub16 =>
    refine exec_of_halfLanes (fun x y => uint x - uint y) hc (by unfold exec; exact rfl) fun _ _ h => ?_
    exact halved_of_eq ((congrArg sint h).trans (sint_trunc_halve_uint_sub (by decide) _ _))
  case uhadd8 =>
    refine exec_of_byteLanes (fun x y => uint x + uint y) hc (by unfold exec; exact rfl) fun _ _ h => ?_
    exact halved_of_eq ((congrArg uint h).trans (uint_trunc_halve_add _ _))
  case uhsub8 =>
    refine exec_of_byteLanes (fun x y => uint x - uint y) hc (by unfold exec; exact rfl) fun _ _ h => ?_
    exact halved_of_eq ((congrArg sint h).trans (sint_trunc_halve_uint_sub (by decide) _ _))

end Sys2Proof.Machine

/-! ## The unsigned parallel additions and subtractions (R160 to R179) -/

namespace Sys2Proof.Machine

/-! ### The carry out of an unsigned lane (R160) -/

/-- A sum carries out of a halfword lane exactly when it needs a seventeenth bit. -/
theorem carryGe_halfword (n : Int) : carryGe 16 n = decide (0x10000 ≤ n) := by
  unfold carryGe
  norm_num

/-- A sum carries out of a byte lane exactly when it needs a ninth bit. -/
theorem carryGe_byte (n : Int) : carryGe 8 n = decide (0x100 ≤ n) := by
  unfold carryGe
  norm_num

/-- Settles O7: each of the six is a `binary` that writes its wrapped lanes and, for GE, the carry of each lane that adds and
the absence of a borrow of each lane that subtracts, which are bounds on the exact results. -/
theorem unsignedParallelResults : Obligations.UnsignedParallelResults := by
  refine ⟨fun c d n m s => ?_, fun w c hc => ?_, fun c rd rn rm => ?_⟩
  · refine ⟨?uadd16, ?uaddsubx, ?usubaddx, ?usub16, ?uadd8, ?usub8⟩
    all_goals refine exec_of_binary_value_ge (by unfold exec; exact rfl) rfl ?_
    case uadd16 => exact congrArg₂ gePairs (carryGe_halfword _) (carryGe_halfword _)
    case uaddsubx => exact congrArg₂ gePairs (carryGe_halfword _) rfl
    case usubaddx => exact congrArg₂ gePairs rfl (carryGe_halfword _)
    case usub16 => rfl
    case uadd8 =>
      simp only [carryGe_byte]
      rfl
    case usub8 => rfl
  · exact ⟨decode_of_row (m := .uadd16) hc (by decide), decode_of_row (m := .uaddsubx) hc (by decide),
      decode_of_row (m := .usubaddx) hc (by decide), decode_of_row (m := .usub16) hc (by decide),
      decode_of_row (m := .uadd8) hc (by decide), decode_of_row (m := .usub8) hc (by decide)⟩
  · and_intros
    all_goals exact printInstr_registers_only rfl rfl

/-- Settles O8: each of the six is a `binary` that writes its lanes clamped to the unsigned range and no flag. -/
theorem unsignedSaturatingParallelResults : Obligations.UnsignedSaturatingParallelResults := by
  refine ⟨fun c d n m s => ?_, fun w c hc => ?_, fun c rd rn rm => ?_⟩
  · and_intros
    all_goals
      refine exec_of_binary_value (by unfold exec; exact rfl) ?_
      rfl
  · exact ⟨decode_of_row (m := .uqadd16) hc (by decide), decode_of_row (m := .uqaddsubx) hc (by decide),
      decode_of_row (m := .uqsubaddx) hc (by decide), decode_of_row (m := .uqsub16) hc (by decide),
      decode_of_row (m := .uqadd8) hc (by decide), decode_of_row (m := .uqsub8) hc (by decide)⟩
  · and_intros
    all_goals exact printInstr_registers_only rfl rfl

/-- Settles O9: each of the six is a `binary` that writes the halves of its unsigned lanes' exact results and no flag. -/
theorem unsignedHalvingParallelResults : Obligations.UnsignedHalvingParallelResults := by
  refine ⟨fun c d n m s => ?_, fun w c hc => ?_, fun c rd rn rm => ?_⟩
  · and_intros
    all_goals
      refine exec_of_binary_value (by unfold exec; exact rfl) ?_
      rfl
  · exact ⟨decode_of_row (m := .uhadd16) hc (by decide), decode_of_row (m := .uhaddsubx) hc (by decide),
      decode_of_row (m := .uhsubaddx) hc (by decide), decode_of_row (m := .uhsub16) hc (by decide),
      decode_of_row (m := .uhadd8) hc (by decide), decode_of_row (m := .uhsub8) hc (by decide)⟩
  · and_intros
    all_goals exact printInstr_registers_only rfl rfl

end Sys2Proof.Machine

/-! ## The dual halfword multiplies and the most significant word multiplies (R200 to R214) -/

namespace Sys2Proof.Machine

/-! ### What each of the nine answers with registers in its fields -/

/-- An instruction `Rd <- f(x[Ra], x[Rb], x[Rn])` with registers in its fields completes, with its effect under R52. -/
theorem exec_of_ternary {i : Instr} {c : Cond} {d a b n : GPR} {s : State} {f : Word → Word → Word → Effect}
    (h : exec i s = ternary c (regNum d) (regNum a) (regNum b) (regNum n) s f) :
    exec i s = .next (s.retired c (s.apply d (f s.regs[a] s.regs[b] s.regs[n]))) := by
  rw [h, ternary_regNum, complete_eq_retired (State.apply_pc ..)]
  rfl

/-- An instruction `Rd <- f(x[Ra], x[Rb], x[Rn])` that writes no flag changes `Rd` and `pc` alone (R52). -/
theorem exec_of_ternary_value {i : Instr} {c : Cond} {d a b n : GPR} {s : State} {f : Word → Word → Word → Word}
    {v : Word} (h : exec i s = ternary c (regNum d) (regNum a) (regNum b) (regNum n) s fun x y z => { value := f x y z })
    (hv : f s.regs[a] s.regs[b] s.regs[n] = v) : exec i s = .next (s.retired c { s with regs := s.regs.set d v }) := by
  rw [exec_of_ternary h, State.apply_value, hv]

/-- An instruction on `RdHi:RdLo` with different registers there completes, with its body under R52. -/
theorem exec_of_longAccumulate {i : Instr} {c : Cond} {lo hi m k : GPR} {s : State} {f : Int → Word → Word → Int}
    {q : Int → Bool} (hne : lo ≠ hi)
    (h : exec i s = longAccumulate c (regNum lo) (regNum hi) (regNum m) (regNum k) s f q) :
    exec i s = .next (s.retired c (longBody lo hi m k f q s)) := by
  rw [h, longAccumulate_regNum _ _ _ _ _ _ hne, complete_eq_retired rfl]

section
variable (c : Cond) (x r : Bool) (d m k n : GPR) (s : State)

theorem exec_smuad : exec (.smuad c x (regNum d) (regNum m) (regNum k)) s =
    .next (s.retired c (s.apply d (accumulated true
      (bottomProduct x s.regs[m] s.regs[k] + topProduct x s.regs[m] s.regs[k])))) := by
  rw [exec_of_binary (by unfold exec; exact rfl)]

theorem exec_smlad : exec (.smlad c x (regNum d) (regNum m) (regNum k) (regNum n)) s =
    .next (s.retired c (s.apply d (accumulated true
      (s.regs[n].toInt + bottomProduct x s.regs[m] s.regs[k] + topProduct x s.regs[m] s.regs[k])))) := by
  rw [exec_of_ternary (by unfold exec; exact rfl)]

theorem exec_smusd : exec (.smusd c x (regNum d) (regNum m) (regNum k)) s =
    .next (s.retired c (s.apply d (accumulated false
      (bottomProduct x s.regs[m] s.regs[k] - topProduct x s.regs[m] s.regs[k])))) := by
  rw [exec_of_binary (by unfold exec; exact rfl)]

theorem exec_smlsd : exec (.smlsd c x (regNum d) (regNum m) (regNum k) (regNum n)) s =
    .next (s.retired c (s.apply d (accumulated (s.cfg.qDualSub == .armArm)
      (s.regs[n].toInt + bottomProduct x s.regs[m] s.regs[k] - topProduct x s.regs[m] s.regs[k])))) := by
  rw [exec_of_ternary (by unfold exec; exact rfl)]

theorem exec_smlald {lo hi : GPR} (hne : lo ≠ hi) : exec (.smlald c x (regNum lo) (regNum hi) (regNum m) (regNum k)) s =
    .next (s.retired c (longBody lo hi m k (fun acc a b => acc + bottomProduct x a b + topProduct x a b)
      (fun _ => false) s)) :=
  exec_of_longAccumulate hne (by unfold exec; exact rfl)

theorem exec_smlsld {lo hi : GPR} (hne : lo ≠ hi) : exec (.smlsld c x (regNum lo) (regNum hi) (regNum m) (regNum k)) s =
    .next (s.retired c (longBody lo hi m k (fun acc a b => acc + bottomProduct x a b - topProduct x a b)
      (fun e => s.cfg.qDualSub == .sourceLiteral && overflow64 e) s)) :=
  exec_of_longAccumulate hne (by unfold exec; exact rfl)

theorem exec_smmul : exec (.smmul c r (regNum d) (regNum m) (regNum k)) s =
    .next (s.retired c (s.setReg d (top32 (s.regs[m].toInt * s.regs[k].toInt + roundConstant r)))) :=
  exec_of_binary_value (by unfold exec; exact rfl) rfl

theorem exec_smmla : exec (.smmla c r (regNum d) (regNum m) (regNum k) (regNum n)) s =
    .next (s.retired c (s.setReg d
      (top32 (s.regs[n].toInt * 2 ^ 32 + s.regs[m].toInt * s.regs[k].toInt + roundConstant r)))) :=
  exec_of_ternary_value (by unfold exec; exact rfl) rfl

theorem exec_smmls : exec (.smmls c r (regNum d) (regNum m) (regNum k) (regNum n)) s =
    .next (s.retired c (s.setReg d
      (smmlsValue s.cfg.smmlsForm r s.regs[n] (s.regs[m].toInt * s.regs[k].toInt)))) :=
  exec_of_ternary_value (by unfold exec; exact rfl) rfl

end

/-! ### The overflow flag in the words of R208 and R209 -/

theorem overflow32_eq_decide (n : Int) : overflow32 n = decide (n ≠ (trunc 32 n).toInt) := by
  simp [overflow32, bne, beq_eq_decide, eq_comm]

theorem overflow64_eq_decide (n : Int) : overflow64 n = decide (n ≠ (trunc 64 n).toInt) := by
  simp [overflow64, bne, beq_eq_decide, eq_comm]

/-- A sticky flag that an overflow sets where it may (R26). -/
theorem or_decide_and_decide (q : Bool) (P R : Prop) [Decidable P] [Decidable R] :
    (q || (decide P && decide R)) = if P ∧ R then true else q := by
  by_cases h : P ∧ R <;> simp [← Bool.decide_and, h]

/-- An accumulating instruction changes `Rd`, Q and `pc` alone; `P` tells whether it may set Q. -/
theorem exec_of_accumulated {i : Instr} {c : Cond} {d : GPR} {s : State} {b : Bool} {n : Int} (P : Prop) [Decidable P]
    (hP : b = decide P) (h : exec i s = .next (s.retired c (s.apply d (accumulated b n)))) :
    exec i s = .next (s.retired c
      { s with
        regs := s.regs.set d (trunc 32 n)
        cpsr := { s.cpsr with q := if P ∧ n ≠ (trunc 32 n).toInt then true else s.cpsr.q } }) := by
  rw [h, hP, ← or_decide_and_decide, ← overflow32_eq_decide]
  rfl

/-- A 64-bit accumulating instruction changes `RdLo`, `RdHi`, Q and `pc` alone; `P` tells whether it may set Q. -/
theorem exec_of_longBody {i : Instr} {c : Cond} {lo hi m k : GPR} {s : State} {f : Int → Word → Word → Int}
    {q : Int → Bool} {n : Int} (P : Prop) [Decidable P] (h : exec i s = .next (s.retired c (longBody lo hi m k f q s)))
    (hn : f (s.regs[hi] ++ s.regs[lo] : Dword).toInt s.regs[m] s.regs[k] = n) (hP : q n = (decide P && overflow64 n)) :
    exec i s = .next (s.retired c
      { s with
        regs := (s.regs.set lo ((trunc 64 n).extractLsb' 0 32)).set hi ((trunc 64 n).extractLsb' 32 32)
        cpsr := { s.cpsr with q := if P ∧ n ≠ (trunc 64 n).toInt then true else s.cpsr.q } }) := by
  subst hn
  rw [h, ← or_decide_and_decide, ← overflow64_eq_decide, ← hP]
  rfl

/-! ### The result, encoding and print of each of the nine -/

/-- The print of a multiply: its `X` or `R` after the mnemonic, and its registers (R59). -/
theorem printInstr_variant {i : Instr} (ho : operandText i = operandList (i.registers.map regName)) :
    printInstr i =
      mnemonicName i.mnemonic ++ variantLetter i ++ condSuffix i.cond ++ " " ++ operandList (i.registers.map regName) := by
  rw [printInstr, ho]

/-- Settles O10: each of the four accumulates its products, and its Q is the overflow of the exact sum where it may set Q. -/
theorem dualMultiplyResults : Obligations.DualMultiplyResults := by
  refine ⟨fun c x d m k n s => ⟨?smuad, ?smlad, ?smusd, ?smlsd⟩, fun w c hc => ?decoding, ?print⟩
  case smuad => exact exec_of_accumulated True rfl (exec_smuad ..)
  case smlad => exact exec_of_accumulated True rfl (exec_smlad ..)
  case smusd => exact exec_of_accumulated False rfl (exec_smusd ..)
  case smlsd => exact exec_of_accumulated (s.cfg.qDualSub = .armArm) rfl (exec_smlsd ..)
  case decoding =>
    exact ⟨decode_of_row (m := .smuad) hc (by decide), decode_of_constrained_row (m := .smlad) hc (by decide),
      decode_of_row (m := .smusd) hc (by decide), decode_of_constrained_row (m := .smlsd) hc (by decide)⟩
  case print =>
    and_intros
    all_goals
      intros
      exact printInstr_variant rfl

/-- Settles O11: both accumulate their products on 64 bits, and SMLALD may never set Q; equal destinations are refused. -/
theorem dualMultiplyLongResults : Obligations.DualMultiplyLongResults := by
  refine ⟨fun c x lo hi m k s hne => ⟨?smlald, ?smlsld⟩, fun c x r m k s => ⟨?refusedSmlald, ?refusedSmlsld⟩,
    fun w c hc => ⟨?decodeSmlald, ?decodeSmlsld⟩, fun c x rdLo rdHi rm rs => ⟨?printSmlald, ?printSmlsld⟩⟩
  case smlald => exact exec_of_longBody False (exec_smlald c x m k s hne) rfl rfl
  case smlsld => exact exec_of_longBody (s.cfg.qDualSub = .sourceLiteral) (exec_smlsld c x m k s hne) rfl rfl
  case refusedSmlald | refusedSmlsld => exact exec_of_equal_destinations (by simp [Instr.registers]) rfl
  case decodeSmlald => exact decode_of_row (m := .smlald) hc (by decide)
  case decodeSmlsld => exact decode_of_row (m := .smlsld) hc (by decide)
  case printSmlald | printSmlsld => exact printInstr_variant rfl

/-- Settles O12: each of the three writes its top word and no flag, SMMLS the one that `SMMLS_FORM` names. -/
theorem mostSignificantWordResults : Obligations.MostSignificantWordResults := by
  refine ⟨fun c r d m k n s => ⟨exec_smmul .., exec_smmla .., exec_smmls ..⟩, fun w c hc => ?decoding,
    fun _ _ _ _ _ => printInstr_variant rfl, fun _ _ _ _ _ _ => ⟨printInstr_variant rfl, printInstr_variant rfl⟩⟩
  case decoding =>
    exact ⟨decode_of_row (m := .smmul) hc (by decide), decode_of_constrained_row (m := .smmla) hc (by decide),
      decode_of_row (m := .smmls) hc (by decide)⟩

/-! ### The halfword products (R201) -/

/-- The exchange of X is the word with its halfwords the other way round. -/
theorem exchanged_true (v : Word) : exchanged true v = halves (lo16 v) (hi16 v) := by
  refine BitVec.eq_of_getLsbD_eq fun i hi => ?_
  rw [exchanged, if_pos rfl, ror32, BitVec.getLsbD_rotateRight, halves, BitVec.getLsbD_append, lo16, hi16,
    BitVec.getLsbD_extractLsb', BitVec.getLsbD_extractLsb']
  by_cases hlow : i < 16
  · simp [hlow]
  · have htop : i - 16 < 16 := by omega
    simp [hlow, htop, hi]

theorem lo16_halves (a b : Half) : lo16 (halves a b) = b := BitVec.extractLsb'_append_eq_right

theorem hi16_halves (a b : Half) : hi16 (halves a b) = a :=
  halfAt_halves (fun j => if j = 0 then b else a) (k := 1) (by decide)

/-- The bottom halfword of the second operand (R201). -/
theorem lo16_exchanged (x : Bool) (v : Word) : lo16 (exchanged x v) = if x then hi16 v else lo16 v := by
  cases x with
  | false => rfl
  | true => rw [exchanged_true, lo16_halves, if_pos rfl]

/-- The top halfword of the second operand (R201). -/
theorem hi16_exchanged (x : Bool) (v : Word) : hi16 (exchanged x v) = if x then lo16 v else hi16 v := by
  cases x with
  | false => rfl
  | true => rw [exchanged_true, hi16_halves, if_pos rfl]

theorem toInt_half_bounds (a : Half) : -(2 ^ 15) ≤ a.toInt ∧ a.toInt ≤ 2 ^ 15 - 1 :=
  ⟨BitVec.le_toInt a, Int.le_sub_one_of_lt BitVec.toInt_lt⟩

/-- A product of signed halfwords is least for the minimum times the maximum and greatest for two minima. -/
theorem halfProduct_bounds (a b : Half) : -(2 ^ 30) + 2 ^ 15 ≤ a.toInt * b.toInt ∧ a.toInt * b.toInt ≤ 2 ^ 30 := by
  obtain ⟨halo, hahi⟩ := toInt_half_bounds a
  obtain ⟨hblo, hbhi⟩ := toInt_half_bounds b
  constructor <;> nlinarith

theorem toInt_half_eq_min_iff (a : Half) : a.toInt = -(2 ^ 15) ↔ a = 0x8000 :=
  BitVec.toInt_inj (y := 0x8000#16)

/-- Only the product of two minima reaches 2^30. -/
theorem halfProduct_eq_iff (a b : Half) : a.toInt * b.toInt = 2 ^ 30 ↔ a = 0x8000 ∧ b = 0x8000 := by
  obtain ⟨halo, hahi⟩ := toInt_half_bounds a
  obtain ⟨hblo, hbhi⟩ := toInt_half_bounds b
  rw [← toInt_half_eq_min_iff, ← toInt_half_eq_min_iff]
  constructor
  · intro h
    constructor <;> nlinarith
  · rintro ⟨ha, hb⟩
    rw [ha, hb]
    norm_num

theorem bottomProduct_bounds (x : Bool) (m k : Word) :
    -(2 ^ 30) + 2 ^ 15 ≤ bottomProduct x m k ∧ bottomProduct x m k ≤ 2 ^ 30 :=
  halfProduct_bounds ..

theorem topProduct_bounds (x : Bool) (m k : Word) :
    -(2 ^ 30) + 2 ^ 15 ≤ topProduct x m k ∧ topProduct x m k ≤ 2 ^ 30 :=
  halfProduct_bounds ..

/-- Settles O50: the range of a product of halfwords, and the exchange of the halfwords. -/
theorem halfwordProductsAreExact : Obligations.HalfwordProductsAreExact := by
  intro x m k
  refine ⟨rfl, rfl, bottomProduct_bounds x m k, topProduct_bounds x m k, halfProduct_eq_iff _ _, halfProduct_eq_iff _ _, ?_⟩
  rintro rfl
  exact ⟨lo16_exchanged true k, hi16_exchanged true k⟩

/-! ### When the exact result overflows (R208, R209) -/

/-- A number differs from its truncation exactly when it is outside the signed range. -/
theorem ne_toInt_trunc_iff {w : Nat} (hw : 0 < w) (n : Int) :
    n ≠ (trunc w n).toInt ↔ n < -2 ^ (w - 1) ∨ 2 ^ (w - 1) ≤ n := by
  constructor
  · intro hne
    by_contra hin
    obtain ⟨hlo, hhi⟩ := not_or.1 hin
    exact hne (sint_trunc_of_fits hw (not_lt.1 hlo) (not_le.1 hhi)).symm
  · intro hout heq
    have hlo := BitVec.le_toInt (trunc w n)
    have hhi := BitVec.toInt_lt (x := trunc w n)
    omega

theorem overflow32_eq_true_iff (n : Int) : overflow32 n = true ↔ n < -(2 ^ 31) ∨ 2 ^ 31 ≤ n := by
  rw [overflow32_eq_decide, decide_eq_true_iff]
  exact ne_toInt_trunc_iff (by decide) n

theorem overflow64_eq_true_iff (n : Int) : overflow64 n = true ↔ n < -(2 ^ 63) ∨ 2 ^ 63 ≤ n := by
  rw [overflow64_eq_decide, decide_eq_true_iff]
  exact ne_toInt_trunc_iff (by decide) n

/-- A word is one halfword twice exactly when each of its halfwords is that halfword. -/
theorem eq_halves_iff (v : Word) (h : Half) : v = halves h h ↔ lo16 v = h ∧ hi16 v = h := by
  constructor
  · rintro rfl
    exact ⟨lo16_halves h h, hi16_halves h h⟩
  · rintro ⟨hlo, hhi⟩
    rw [← halves_hi16_lo16 v, hlo, hhi]

/-- Both products are 2^30 exactly when all four halfwords are minima, exchanged or not. -/
theorem products_eq_iff (x : Bool) (m k : Word) :
    bottomProduct x m k = 2 ^ 30 ∧ topProduct x m k = 2 ^ 30 ↔ m = 0x80008000 ∧ k = 0x80008000 := by
  have hminima (v : Word) : v = 0x80008000 ↔ lo16 v = 0x8000 ∧ hi16 v = 0x8000 := eq_halves_iff v 0x8000
  unfold bottomProduct topProduct
  rw [halfProduct_eq_iff, halfProduct_eq_iff, lo16_exchanged, hi16_exchanged, hminima, hminima]
  cases x with
  | false => exact and_and_and_comm
  | true => exact and_and_and_comm.trans (and_congr_right' and_comm)

/-- Only four minima take the sum of the products out of the signed 32-bit range (R204). -/
theorem overflow32_productSum_iff (x : Bool) (m k : Word) :
    overflow32 (bottomProduct x m k + topProduct x m k) = true ↔ m = 0x80008000 ∧ k = 0x80008000 := by
  obtain ⟨hblo, hbhi⟩ := bottomProduct_bounds x m k
  obtain ⟨htlo, hthi⟩ := topProduct_bounds x m k
  rw [overflow32_eq_true_iff, ← products_eq_iff x]
  omega

/-- Settles O51: Q is the overflow of the sum, which has one value there. -/
theorem smuadOverflowsOnlyOnFourMinima : Obligations.SmuadOverflowsOnlyOnFourMinima := by
  intro c x d m k s hc hq
  refine ⟨_, exec_smuad .., ?_⟩
  rw [State.retired_passed hc]
  have hiff : (s.apply d (accumulated true (bottomProduct x s.regs[m] s.regs[k] + topProduct x s.regs[m] s.regs[k]))).cpsr.q
      = true ↔ s.regs[m] = 0x80008000 ∧ s.regs[k] = 0x80008000 := by
    rw [State.apply_q, hq]
    exact overflow32_productSum_iff x _ _
  refine ⟨hiff, fun hset => (s.reg_apply_same d _).trans ?_⟩
  obtain ⟨hbottom, htop⟩ := (products_eq_iff x _ _).2 (hiff.1 hset)
  exact congrArg (trunc 32) (congrArg₂ (· + ·) hbottom htop)

/-- The difference of the products fits a signed word (R206). -/
theorem productDifference_bounds (x : Bool) (m k : Word) :
    -(2 ^ 31) + 2 ^ 15 ≤ bottomProduct x m k - topProduct x m k ∧
      bottomProduct x m k - topProduct x m k ≤ 2 ^ 31 - 2 ^ 15 := by
  obtain ⟨hblo, hbhi⟩ := bottomProduct_bounds x m k
  obtain ⟨htlo, hthi⟩ := topProduct_bounds x m k
  omega

theorem toInt_trunc_productDifference (x : Bool) (m k : Word) :
    (trunc 32 (bottomProduct x m k - topProduct x m k)).toInt = bottomProduct x m k - topProduct x m k := by
  obtain ⟨hlo, hhi⟩ := productDifference_bounds x m k
  exact sint_trunc_of_fits (by decide) (by omega) (by omega)

theorem State.apply_value_cpsr (s : State) (d : GPR) (v : Word) : (s.apply d { value := v }).cpsr = s.cpsr := by
  rw [State.apply_value]

/-- Settles O52: the difference is in range, so that it is read back from `Rd`. -/
theorem smusdNeverOverflows : Obligations.SmusdNeverOverflows := by
  intro c x d m k s hc
  refine ⟨_, exec_smusd .., ?_⟩
  rw [State.retired_passed hc]
  have hread := (congrArg BitVec.toInt (s.reg_apply_same d (accumulated false _))).trans
    (toInt_trunc_productDifference x s.regs[m] s.regs[k])
  obtain ⟨hlo, hhi⟩ := productDifference_bounds x s.regs[m] s.regs[k]
  exact ⟨s.apply_value_cpsr d _, hread, hlo.trans_eq hread.symm, hread.trans_le hhi⟩

theorem longBody_q (lo hi m k : GPR) (f : Int → Word → Word → Int) (q : Int → Bool) (s : State) :
    (longBody lo hi m k f q s).cpsr.q =
      (s.cpsr.q || q (f (s.regs[hi] ++ s.regs[lo] : Dword).toInt s.regs[m] s.regs[k])) := rfl

/-- Settles O53: each of the two sets Q where `Q_DUAL_SUB` names it and its exact result overflows. -/
theorem qDualSubDecidesWhichSetsQ : Obligations.QDualSubDecidesWhichSetsQ := by
  intro c x d m k n lo hi s hc hq hne
  refine ⟨_, _, exec_smlsd .., exec_smlsld c x m k s hne, ?_⟩
  simp only [State.retired_passed hc, State.apply_q, longBody_q, accumulated, hq, Bool.false_or, ← add_sub_assoc]
  refine ⟨fun harm => ?_, fun hliteral => ?_⟩
  · rw [harm]
    exact ⟨overflow32_eq_true_iff _, rfl⟩
  · rw [hliteral]
    exact ⟨rfl, overflow64_eq_true_iff _⟩

/-! ### The top word of a 64-bit value (R212 to R214) -/

/-- The top word is the floor of the value over 2^32, modulo 2^32. -/
theorem top32_eq_trunc (n : Int) : top32 n = trunc 32 (n / 2 ^ 32) := by
  refine BitVec.eq_of_toNat_eq ?_
  simp only [top32, trunc, BitVec.extractLsb'_toNat, BitVec.toNat_ofInt, Nat.shiftRight_eq_div_pow]
  omega

/-- A word plus a number modulo 2^32 (R8). -/
theorem trunc_toInt_add (n : Word) (e : Int) : trunc 32 (n.toInt + e) = n + trunc 32 e := by
  rw [trunc, BitVec.ofInt_add, BitVec.ofInt_toInt, trunc]

/-- A multiple of 2^32 is added to the top word alone. -/
theorem top32_add (n : Word) (e : Int) : top32 (n.toInt * 2 ^ 32 + e) = n + top32 e := by
  rw [top32_eq_trunc, top32_eq_trunc, ← trunc_toInt_add, Int.add_comm, Int.add_mul_ediv_right _ _ (by decide), Int.add_comm]

/-- Settles O54: the accumulate operand of SMMLA is a multiple of 2^32. -/
theorem smmlaAddsToTheTopWord : Obligations.SmmlaAddsToTheTopWord := by
  intro c r d m k n s hc
  refine ⟨_, _, exec_smmul .., exec_smmla .., ?_⟩
  rw [State.retired_passed hc, State.retired_passed hc]
  refine (s.reg_setReg_same d _).trans (.trans ?_ (congrArg (s.regs[n] + ·) (s.reg_setReg_same d _)).symm)
  rw [Int.add_assoc, top32_add]

/-- The wide form of SMMLS: the rounded negative product is added (R214). -/
theorem smmlsValue_wide64 (r : Bool) (n : Word) (p : Int) :
    smmlsValue .wide64 r n p = n + trunc 32 ((roundConstant r - p) / 2 ^ 32) := by
  rw [smmlsValue, ← top32_eq_trunc, ← top32_add]
  congr 1
  omega

/-- The difference of two words, taken on their unsigned values (R8). -/
theorem trunc_toNat_sub (a b : Word) : trunc 32 ((a.toNat : Int) - b.toNat) = a - b := by
  refine BitVec.eq_of_toNat_eq ?_
  rw [trunc, BitVec.toNat_ofInt, BitVec.toNat_sub]
  omega

/-- The other form of SMMLS: the top word of the rounded product is subtracted (R214). -/
theorem smmlsValue_top32ThenSub (r : Bool) (n : Word) (p : Int) :
    smmlsValue .top32ThenSub r n p = n + trunc 32 (-((p + roundConstant r) / 2 ^ 32)) := by
  rw [smmlsValue, trunc_toNat_sub, top32_eq_trunc, trunc, trunc, BitVec.ofInt_neg, BitVec.sub_eq_add_neg]

/-- The truncation of a number that is one more than another, or the same. -/
theorem trunc_add_ite (e : Int) (P : Prop) [Decidable P] :
    trunc 32 (e + if P then 1 else 0) = trunc 32 e + if P then 1#32 else 0#32 := by
  rw [trunc, BitVec.ofInt_add]
  split <;> rfl

theorem roundConstant_false : roundConstant false = 0 := rfl

theorem roundConstant_true : roundConstant true = 2 ^ 31 := rfl

/-- Without rounding, `wide64` takes the floor of the negative product: one less than the negative of the product's floor, but
for a low word of zero. -/
theorem smmlsValue_truncated (n : Word) (p : Int) : smmlsValue .top32ThenSub false n p =
    smmlsValue .wide64 false n p + if p % 2 ^ 32 = 0 then 0#32 else 1#32 := by
  have hfloor : -((p + roundConstant false) / 2 ^ 32) =
      (roundConstant false - p) / 2 ^ 32 + if p % 2 ^ 32 ≠ 0 then 1 else 0 := by
    rw [roundConstant_false]
    split <;> omega
  rw [smmlsValue_wide64, smmlsValue_top32ThenSub, hfloor, trunc_add_ite, ite_not, BitVec.add_assoc]

/-- With rounding, both forms take the nearest integer, and a tie goes up in `wide64` and down in the other. -/
theorem smmlsValue_rounded (n : Word) (p : Int) : smmlsValue .wide64 true n p =
    smmlsValue .top32ThenSub true n p + if p % 2 ^ 32 = 2 ^ 31 then 1#32 else 0#32 := by
  have hfloor : (roundConstant true - p) / 2 ^ 32 =
      -((p + roundConstant true) / 2 ^ 32) + if p % 2 ^ 32 = 2 ^ 31 then 1 else 0 := by
    rw [roundConstant_true]
    split <;> omega
  rw [smmlsValue_wide64, smmlsValue_top32ThenSub, hfloor, trunc_add_ite, BitVec.add_assoc]

/-- SMMLS under a passing condition: `Rd` holds the result in the form that `SMMLS_FORM` names. -/
theorem exec_smmls_passed {c : Cond} {s : State} (hc : conditionPassed c s.cpsr = true) (r : Bool) (d m k n : GPR) :
    ∃ t, exec (.smmls c r (regNum d) (regNum m) (regNum k) (regNum n)) s = .next t ∧
      t.regs[d] = smmlsValue s.cfg.smmlsForm r s.regs[n] (s.regs[m].toInt * s.regs[k].toInt) := by
  refine ⟨_, exec_smmls .., ?_⟩
  rw [State.retired_passed hc]
  exact s.reg_setReg_same d _

/-- Settles O55: the results of the two forms differ as the floors they take do. -/
theorem smmlsFormsDifferByAtMostOne : Obligations.SmmlsFormsDifferByAtMostOne := by
  intro c r d m k n s hc form low
  obtain ⟨t, ht, hwide⟩ := exec_smmls_passed (s := form .wide64) hc r d m k n
  obtain ⟨u, hu, htop⟩ := exec_smmls_passed (s := form .top32ThenSub) hc r d m k n
  refine ⟨t, u, ht, hu, ?_, ?_⟩
  · rintro rfl
    rw [hwide, htop]
    exact smmlsValue_truncated ..
  · rintro rfl
    rw [hwide, htop]
    exact smmlsValue_rounded ..

end Sys2Proof.Machine

/-! ## The saturates (R220 to R224) -/

namespace Sys2Proof.Machine

/-! ### The result, encoding and print of each of the four -/

/-- An instruction `Rd <- f(x[Rm])` with registers in its fields completes, with its effect under R52. -/
theorem exec_of_unary {i : Instr} {c : Cond} {d m : GPR} {s : State} {f : Word → Effect}
    (h : exec i s = unary c (regNum d) (regNum m) s f) :
    exec i s = .next (s.retired c (s.apply d (f s.regs[m]))) := by
  rw [h, unary_regNum, complete_eq_retired (State.apply_pc ..)]
  rfl

theorem State.apply_value_setQ (s : State) (d : GPR) (v : Word) (b : Bool) :
    s.apply d { value := v, setQ := b } =
      { s with regs := s.regs.set d v, cpsr := { s.cpsr with q := s.cpsr.q || b } } := rfl

/-- An instruction `Rd <- f(x[Rm])` that sets Q where `P` holds changes `Rd`, Q and `pc` alone (R26, R52). -/
theorem exec_of_unary_value_setQ {i : Instr} {c : Cond} {d m : GPR} {s : State} {f : Word → Word} {g : Word → Bool}
    {v : Word} {P : Prop} [Decidable P]
    (h : exec i s = unary c (regNum d) (regNum m) s fun x => { value := f x, setQ := g x })
    (hv : f s.regs[m] = v) (hq : g s.regs[m] = true ↔ P) :
    exec i s = .next (s.retired c
      { s with regs := s.regs.set d v, cpsr := { s.cpsr with q := if P then true else s.cpsr.q } }) := by
  have hg : g s.regs[m] = decide P := Bool.eq_iff_iff.2 (hq.trans decide_eq_true_iff.symm)
  have hsticky : (s.cpsr.q || decide P) = if P then true else s.cpsr.q := by
    by_cases hP : P <;> simp [hP]
  rw [exec_of_unary h, State.apply_value_setQ, hv, hg, hsticky]

/-- One 32-bit saturation: Q is set where it changes the value (R221, R222). -/
theorem exec_of_saturated {i : Instr} {c : Cond} {d m : GPR} {s : State} {sat : Int → Int} {operand : Word → Word}
    (h : exec i s = unary c (regNum d) (regNum m) s fun x => saturated sat (operand x).toInt) :
    exec i s = .next (s.retired c
      { s with
        regs := s.regs.set d (trunc 32 (sat (operand s.regs[m]).toInt))
        cpsr := { s.cpsr with
          q := if sat (operand s.regs[m]).toInt ≠ (operand s.regs[m]).toInt then true else s.cpsr.q } }) :=
  exec_of_unary_value_setQ h rfl bne_iff_ne

/-- Two 16-bit saturations: Q is set where either changes its value (R223, R224). -/
theorem exec_of_saturatedHalves {i : Instr} {c : Cond} {d m : GPR} {s : State} {sat : Int → Int}
    (h : exec i s = unary c (regNum d) (regNum m) s (saturatedHalves sat)) :
    exec i s = .next (s.retired c
      { s with
        regs := s.regs.set d (halves (trunc 16 (sat (hi16 s.regs[m]).toInt)) (trunc 16 (sat (lo16 s.regs[m]).toInt)))
        cpsr := { s.cpsr with
          q := if sat (lo16 s.regs[m]).toInt ≠ (lo16 s.regs[m]).toInt ∨ sat (hi16 s.regs[m]).toInt ≠ (hi16 s.regs[m]).toInt
            then true else s.cpsr.q } }) :=
  exec_of_unary_value_setQ h rfl ((Bool.or_eq_true ..).to_iff.trans (or_congr bne_iff_ne bne_iff_ne))

section
variable (c : Cond) (rd rm : RegNum) (sh : ShiftType) (shiftImm : BitVec 5) (s : State)

theorem exec_ssat (satImm : BitVec 5) : exec (.ssat c rd satImm rm sh shiftImm) s =
    unary c rd rm s fun x => saturated (signedSat · (ssatWidth satImm)) (satOperand sh shiftImm x).toInt := by
  unfold exec; exact rfl

theorem exec_usat (satImm : BitVec 5) : exec (.usat c rd satImm rm sh shiftImm) s =
    unary c rd rm s fun x =>
      saturated (unsignedSat · (usatWidth s.cfg.usatBound satImm)) (satOperand sh shiftImm x).toInt := by
  unfold exec; exact rfl

theorem exec_ssat16 (satImm : BitVec 4) : exec (.ssat16 c rd satImm rm) s =
    unary c rd rm s (saturatedHalves (signedSat · (ssatWidth satImm))) := by
  unfold exec; exact rfl

theorem exec_usat16 (satImm : BitVec 4) : exec (.usat16 c rd satImm rm) s =
    unary c rd rm s (saturatedHalves (unsignedSat · (usatWidth s.cfg.usatBound satImm))) := by
  unfold exec; exact rfl

end

/-- The print of an instruction without a variant letter (R59). -/
theorem printInstr_of_no_variant {i : Instr} (hv : variantLetter i = "") :
    printInstr i = mnemonicName i.mnemonic ++ condSuffix i.cond ++ " " ++ operandText i := by
  rw [printInstr, hv, String.append_empty]

/-- The same where a suffix ends the operands (R59). -/
theorem printInstr_suffixed {i : Instr} {operands suffix : String} (hv : variantLetter i = "")
    (ho : operandText i = operands ++ suffix) :
    printInstr i = mnemonicName i.mnemonic ++ condSuffix i.cond ++ " " ++ operands ++ suffix := by
  rw [printInstr_of_no_variant hv, ho, ← String.append_assoc]

/-- Settles O13: both are one saturation of the shifted operand, their rows have no constraint, and their print ends with the
shift. -/
theorem saturateResults : Obligations.SaturateResults := by
  refine ⟨fun c d satImm m sh shiftImm s => ⟨?ssat, ?usat⟩, fun w c hc => ⟨?decodeSsat, ?decodeUsat⟩,
    fun c rd satImm rm sh shiftImm => ⟨?printSsat, ?printUsat⟩⟩
  case ssat =>
    have hnext := exec_of_saturated (exec_ssat c (regNum d) (regNum m) sh shiftImm s satImm)
    exact hnext
  case usat =>
    have hnext := exec_of_saturated (exec_usat c (regNum d) (regNum m) sh shiftImm s satImm)
    exact hnext
  case decodeSsat => exact decode_of_row (m := .ssat) hc (by decide)
  case decodeUsat => exact decode_of_row (m := .usat) hc (by decide)
  case printSsat | printUsat => exact printInstr_suffixed rfl rfl

/-- Settles O14: both saturate the two halfwords alike, and Q tells of either. -/
theorem saturateHalfwordsResults : Obligations.SaturateHalfwordsResults := by
  refine ⟨fun c d satImm m s => ⟨?ssat16, ?usat16⟩, fun w c hc => ⟨?decodeSsat16, ?decodeUsat16⟩,
    fun c rd satImm rm => ⟨?printSsat16, ?printUsat16⟩⟩
  case ssat16 => exact exec_of_saturatedHalves (exec_ssat16 ..)
  case usat16 => exact exec_of_saturatedHalves (exec_usat16 ..)
  case decodeSsat16 => exact decode_of_row (m := .ssat16) hc (by decide)
  case decodeUsat16 => exact decode_of_row (m := .usat16) hc (by decide)
  case printSsat16 | printUsat16 => exact printInstr_of_no_variant rfl

/-! ### The clamped value fits a word and keeps its sign (R221, R222) -/

/-- A clamp to a range around 0 moves a number towards 0. -/
theorem clamp_between {lo hi : Int} (hlo : lo ≤ 0) (hhi : 0 ≤ hi) (n : Int) :
    min 0 n ≤ clamp lo hi n ∧ clamp lo hi n ≤ max 0 n := by
  rw [clamp_eq_max_min (hlo.trans hhi)]
  omega

/-- So a clamped signed value of a word is the signed value of a word. -/
theorem toInt_trunc_clamp {lo hi : Int} (hlo : lo ≤ 0) (hhi : 0 ≤ hi) (v : Word) :
    (trunc 32 (clamp lo hi v.toInt)).toInt = clamp lo hi v.toInt := by
  obtain ⟨hmin, hmax⟩ := clamp_between hlo hhi v.toInt
  have hvlo := v.le_toInt
  have hvhi := v.toInt_lt
  exact sint_trunc_of_fits (by decide) (by omega) (by omega)

theorem toInt_trunc_signedSat (v : Word) (w : Nat) : (trunc 32 (signedSat v.toInt w)).toInt = signedSat v.toInt w := by
  have hpos : (0 : Int) < 2 ^ (w - 1) := by positivity
  exact toInt_trunc_clamp (by omega) (by omega) v

theorem toInt_trunc_unsignedSat (v : Word) (w : Nat) :
    (trunc 32 (unsignedSat v.toInt w)).toInt = unsignedSat v.toInt w := by
  have hpos : (0 : Int) < 2 ^ w := by positivity
  exact toInt_trunc_clamp le_rfl (by omega) v

/-- From Q = 0 and with the condition passing, a saturation whose value fits a word leaves that value in `Rd`, and Q tells
whether `Rd` differs from the operand. -/
theorem exec_of_saturated_passed {i : Instr} {c : Cond} {d m : GPR} {s : State} {sat : Int → Int} {operand : Word → Word}
    (hc : conditionPassed c s.cpsr = true) (hq : s.cpsr.q = false)
    (h : exec i s = unary c (regNum d) (regNum m) s fun x => saturated sat (operand x).toInt)
    (hfits : ∀ v : Word, (trunc 32 (sat v.toInt)).toInt = sat v.toInt) :
    ∃ t, exec i s = .next t ∧ t.regs[d].toInt = sat (operand s.regs[m]).toInt ∧
      (t.cpsr.q = false ↔ t.regs[d] = operand s.regs[m]) := by
  refine ⟨_, exec_of_unary h, ?_⟩
  rw [State.retired_passed hc]
  have hread := (congrArg BitVec.toInt (s.reg_apply_same d (saturated sat (operand s.regs[m]).toInt))).trans (hfits _)
  refine ⟨hread, ?_⟩
  rw [State.apply_q, hq, Bool.false_or, ← BitVec.toInt_inj]
  exact bne_eq_false_iff_eq.trans ⟨hread.trans, hread.symm.trans⟩

/-! ### SSAT (R220, R221) -/

theorem signedSat_bounds (n : Int) (k : Nat) : -(2 ^ k) ≤ signedSat n (k + 1) ∧ signedSat n (k + 1) < 2 ^ k := by
  have hpos : (0 : Int) < 2 ^ k := by positivity
  rw [signedSat_eq_max_min, Nat.add_sub_cancel]
  omega

/-- A number in the signed range is not changed. -/
theorem signedSat_eq_self {n : Int} {k : Nat} (hlo : -(2 ^ k) ≤ n) (hhi : n < 2 ^ k) : signedSat n (k + 1) = n := by
  rw [signedSat_eq_max_min, Nat.add_sub_cancel]
  omega

/-- ASR #32 leaves copies of the sign (R220). -/
theorem satOperand_asr_zero (v : Word) : satOperand .asr 0 v = if v.msb then 0xFFFFFFFF else 0 := by
  have hvlo := v.le_toInt
  have hvhi := v.toInt_lt
  cases hsign : v.msb with
  | true =>
    have hneg := BitVec.toInt_neg_of_msb_true hsign
    have hfloor : v.toInt / 2 ^ 32 = -1 := by omega
    exact congrArg (trunc 32) hfloor
  | false =>
    have hnonneg := BitVec.toInt_nonneg_of_msb_false hsign
    have hfloor : v.toInt / 2 ^ 32 = 0 := by omega
    exact congrArg (trunc 32) hfloor

theorem toInt_satOperand_asr_zero (v : Word) : (satOperand .asr 0 v).toInt = if v.msb then -1 else 0 := by
  rw [satOperand_asr_zero]
  split <;> rfl

/-- Settles O56: `Rd` holds the clamped value, which is the operand where the operand is in range. -/
theorem ssatResultInRange : Obligations.SsatResultInRange := by
  intro c d m satImm sh shiftImm s hc hq
  obtain ⟨t, ht, hRd, hkept⟩ := exec_of_saturated_passed hc hq (exec_ssat ..) (toInt_trunc_signedSat · (ssatWidth satImm))
  obtain ⟨hlo, hhi⟩ := signedSat_bounds (satOperand sh shiftImm s.regs[m]).toInt satImm.toNat
  have hfits : -(2 ^ satImm.toNat) ≤ (satOperand sh shiftImm s.regs[m]).toInt →
      (satOperand sh shiftImm s.regs[m]).toInt < 2 ^ satImm.toNat → t.regs[d] = satOperand sh shiftImm s.regs[m] :=
    fun hl hr => BitVec.toInt_inj.1 (hRd.trans (signedSat_eq_self hl hr))
  refine ⟨t, ht, hlo.trans_eq hRd.symm, hRd.trans_lt hhi, hkept, ?_, ?_⟩
  · rintro rfl
    exact hkept.2 (hfits (BitVec.le_toInt _) BitVec.toInt_lt)
  · rintro rfl rfl
    have hpos : (0 : Int) < 2 ^ satImm.toNat := by positivity
    have hsign := toInt_satOperand_asr_zero s.regs[m]
    have heq := hfits (by omega) (by omega)
    exact ⟨hkept.2 heq, heq.trans (satOperand_asr_zero _)⟩

/-! ### USAT (R222) -/

theorem unsignedSat_bounds (n : Int) (k : Nat) : 0 ≤ unsignedSat n k ∧ unsignedSat n k < 2 ^ k := by
  have hpos : (0 : Int) < 2 ^ k := by positivity
  rw [unsignedSat_eq_max_min]
  omega

theorem unsignedSat_of_neg {n : Int} (hn : n < 0) (k : Nat) : unsignedSat n k = 0 := if_pos hn

/-- A word that is not negative as a signed number is one number either way. -/
theorem toNat_eq_toInt_of_nonneg {v : Word} (h : 0 ≤ v.toInt) : (v.toNat : Int) = v.toInt :=
  (BitVec.toInt_eq_toNat_of_msb (by simpa [BitVec.msb_eq_toInt] using h)).symm

/-- Settles O57: `Rd` holds the clamped value, which is 0 for a negative operand and for a range of 0 alone. -/
theorem usatClampsNegativesToZero : Obligations.UsatClampsNegativesToZero := by
  intro c d m satImm sh shiftImm s hc hq
  obtain ⟨t, ht, hRd, hkept⟩ := exec_of_saturated_passed hc hq (exec_usat ..)
    (toInt_trunc_unsignedSat · (usatWidth s.cfg.usatBound satImm))
  obtain ⟨hlo, hhi⟩ := unsignedSat_bounds (satOperand sh shiftImm s.regs[m]).toInt (usatWidth s.cfg.usatBound satImm)
  have hlt : t.regs[d].toNat < 2 ^ usatWidth s.cfg.usatBound satImm := by
    have hnat := toNat_eq_toInt_of_nonneg (hlo.trans_eq hRd.symm)
    exact_mod_cast (hnat.trans hRd).trans_lt hhi
  refine ⟨t, ht, hkept, fun hmsb => ?_, fun hb => ?_, fun hb => ?_, fun hb hzero => ?_⟩
  · have hneg := BitVec.toInt_neg_of_msb_true hmsb
    have hRd0 : t.regs[d] = 0 := BitVec.toInt_inj.1 (hRd.trans (unsignedSat_of_neg hneg _))
    refine ⟨hRd0, Bool.eq_true_of_not_eq_false fun hqt => ?_⟩
    rw [← hkept.1 hqt, hRd0] at hmsb
    exact absurd hmsb (by decide)
  · rwa [hb] at hlt
  · rwa [hb] at hlt
  · rw [hb, hzero] at hlt
    exact BitVec.eq_of_toNat_eq (Nat.lt_one_iff.1 hlt)

end Sys2Proof.Machine

/-! ## The sums of absolute differences (R240 to R242) -/

namespace Sys2Proof.Machine

/-! ### The result, encoding and print of the two -/

theorem trunc_natCast (w n : Nat) : trunc w (n : Int) = BitVec.ofNat w n := BitVec.ofInt_natCast w n

section
variable (c : Cond) (d m k n : GPR) (s : State)

/-- What USAD8 answers with registers in its fields: `Rd` and `pc` alone change (R240). -/
theorem exec_usad8 : exec (.usad8 c (regNum d) (regNum m) (regNum k)) s =
    .next (s.retired c { s with regs := s.regs.set d (BitVec.ofNat 32 (absDiffSum s.regs[m] s.regs[k])) }) :=
  exec_of_binary_value (by unfold exec; exact rfl) (trunc_natCast ..)

/-- What USADA8 answers with registers in its fields: the sum is added to `Rn` modulo `2^32` (R241). -/
theorem exec_usada8 : exec (.usada8 c (regNum d) (regNum m) (regNum k) (regNum n)) s =
    .next (s.retired c
      { s with regs := s.regs.set d (BitVec.ofNat 32 (s.regs[n].toNat + absDiffSum s.regs[m] s.regs[k])) }) :=
  exec_of_ternary_value (by unfold exec; exact rfl) (trunc_natCast ..)

end

/-- Settles O15: both write their sum and no flag, the row of USADA8 keeps `Rn` from being 15, and their print is their
registers. -/
theorem absoluteDifferencesResults : Obligations.AbsoluteDifferencesResults := by
  refine ⟨fun c d m k n s => ⟨exec_usad8 .., exec_usada8 ..⟩, fun w c hc => ⟨?decodeUsad8, ?decodeUsada8⟩,
    fun _ _ _ _ => printInstr_registers_only rfl rfl, fun _ _ _ _ _ => printInstr_registers_only rfl rfl⟩
  case decodeUsad8 => exact decode_of_row (m := .usad8) hc (by decide)
  case decodeUsada8 => exact decode_of_constrained_row (m := .usada8) hc (by decide)

/-! ### The byte sum as a distance between words (R242) -/

/-- The absolute difference of the unsigned bytes `i` of two words, one of the four that `absDiffSum` adds (R242). -/
def byteDiff (m k : Word) (i : Nat) : Nat := (((byteAt m i).toNat : Int) - (byteAt k i).toNat).natAbs

theorem absDiffSum_eq (m k : Word) :
    absDiffSum m k = byteDiff m k 0 + byteDiff m k 1 + byteDiff m k 2 + byteDiff m k 3 := rfl

theorem byteDiff_comm (m k : Word) (i : Nat) : byteDiff m k i = byteDiff k m i := by
  rw [byteDiff, ← Int.natAbs_neg, Int.neg_sub, byteDiff]

theorem byteDiff_le (m k : Word) (i : Nat) : byteDiff m k i ≤ 255 := by
  have hm := (byteAt m i).isLt
  have hk := (byteAt k i).isLt
  unfold byteDiff
  omega

theorem byteDiff_eq_zero_iff {m k : Word} {i : Nat} : byteDiff m k i = 0 ↔ byteAt m i = byteAt k i := by
  rw [byteDiff, Int.natAbs_eq_zero, Int.sub_eq_zero, Int.ofNat_inj, BitVec.toNat_inj]

/-- Bit `j` of a word is bit `j % 8` of its byte `j / 8` (R10). -/
theorem getLsbD_byteAt_div (v : Word) (j : Nat) : (byteAt v (j / 8)).getLsbD (j % 8) = v.getLsbD j := by
  rw [byteAt, BitVec.getLsbD_extractLsb', decide_eq_true (Nat.mod_lt j (by decide)), Bool.true_and, Nat.div_add_mod]

/-- A word is its four bytes (R10). -/
theorem eq_iff_byteAt {m k : Word} : m = k ↔ ∀ i < 4, byteAt m i = byteAt k i := by
  refine ⟨fun h _ _ => h ▸ rfl, fun h => BitVec.eq_of_getLsbD_eq fun j hj => ?_⟩
  rw [← getLsbD_byteAt_div m, h (j / 8) (by omega), getLsbD_byteAt_div]

theorem absDiffSum_comm (m k : Word) : absDiffSum m k = absDiffSum k m := by
  simp only [absDiffSum_eq, byteDiff_comm m k]

/-- Each of the four bytes adds at most 255 (R242). -/
theorem absDiffSum_le (m k : Word) : absDiffSum m k ≤ 1020 :=
  Nat.add_le_add (Nat.add_le_add (Nat.add_le_add (byteDiff_le ..) (byteDiff_le ..)) (byteDiff_le ..)) (byteDiff_le ..)

/-- The sum is 0 where each of its four differences is, and a word is its four bytes. -/
theorem absDiffSum_eq_zero_iff {m k : Word} : absDiffSum m k = 0 ↔ m = k := by
  simp only [eq_iff_byteAt, ← byteDiff_eq_zero_iff, Nat.forall_lt_succ_right, absDiffSum_eq, Nat.add_eq_zero_iff,
    Nat.not_lt_zero, false_implies, implies_true, true_and]

/-- The sum fits a word, so `Rd` holds it exactly (R240, R242). -/
theorem toNat_ofNat_absDiffSum (m k : Word) : (BitVec.ofNat 32 (absDiffSum m k)).toNat = absDiffSum m k :=
  Nat.mod_eq_of_lt ((absDiffSum_le m k).trans_lt (by decide))

/-- Settles O58: the sum is the same in either order, so USAD8 leaves one state, with the exact sum in `Rd`. -/
theorem absoluteDifferencesSymmetricAndBounded : Obligations.AbsoluteDifferencesSymmetricAndBounded := by
  refine ⟨fun m k => ⟨absDiffSum_comm m k, absDiffSum_le m k, absDiffSum_eq_zero_iff⟩, fun c d m k s hc => ?_⟩
  have hswap : exec (.usad8 c (regNum d) (regNum k) (regNum m)) s = exec (.usad8 c (regNum d) (regNum m) (regNum k)) s := by
    rw [exec_usad8, exec_usad8, absDiffSum_comm]
  refine ⟨_, exec_usad8 .., hswap.trans (exec_usad8 ..), ?_⟩
  rw [State.retired_passed hc]
  have hread := (congrArg BitVec.toNat (s.reg_setReg_same d _)).trans (toNat_ofNat_absDiffSum s.regs[m] s.regs[k])
  exact ⟨hread, hread.trans_le (absDiffSum_le ..), rfl⟩

end Sys2Proof.Machine

/-! ## The packs (R250, R251) -/

namespace Sys2Proof.Machine

/-! ### The result, encoding and print of the two -/

section
variable (c : Cond) (d n m : GPR) (shiftImm : BitVec 5) (s : State)

/-- What PKHBT answers with registers in its fields: `Rd` and `pc` alone change (R250). -/
theorem exec_pkhbt : exec (.pkhbt c (regNum d) (regNum n) (regNum m) shiftImm) s =
    .next (s.retired c
      { s with regs := s.regs.set d (halves (hi16 (lsl32 s.regs[m] shiftImm.toNat)) (lo16 s.regs[n])) }) :=
  exec_of_binary_value (by unfold exec; exact rfl) rfl

/-- What PKHTB answers with registers in its fields: `Rd` and `pc` alone change (R251). -/
theorem exec_pkhtb : exec (.pkhtb c (regNum d) (regNum n) (regNum m) shiftImm) s =
    .next (s.retired c
      { s with regs := s.regs.set d (halves (hi16 s.regs[n]) (lo16 (asr32 s.regs[m] (pkhtbShift shiftImm)))) }) :=
  exec_of_binary_value (by unfold exec; exact rfl) rfl

end

/-- Settles O16: both are a `binary` that writes its packed halfwords and no flag, their rows have no constraint, and their
print ends with the shift. -/
theorem packHalfwordResults : Obligations.PackHalfwordResults := by
  refine ⟨fun c d n m shiftImm s => ⟨exec_pkhbt .., exec_pkhtb ..⟩, fun w c hc => ⟨?decodePkhbt, ?decodePkhtb⟩,
    fun c rd rn rm shiftImm => ⟨?printPkhbt, ?printPkhtb⟩⟩
  case decodePkhbt => exact decode_of_row (m := .pkhbt) hc (by decide)
  case decodePkhtb => exact decode_of_row (m := .pkhtb) hc (by decide)
  case printPkhbt => exact printInstr_registers rfl rfl
  case printPkhtb => exact printInstr_registers rfl (String.append_assoc ..)

/-! ### Shifts by 0, 16 and 32 (R250, R251) -/

theorem lsl32_eq_shiftLeft (v : Word) (k : Nat) : lsl32 v k = v <<< k := by
  have hnat : (v.toNat : Int) * 2 ^ k = ((v.toNat <<< k : Nat) : Int) := by simp [Nat.shiftLeft_eq]
  rw [lsl32, hnat, trunc_natCast]
  exact BitVec.eq_of_toNat_eq (BitVec.toNat_shiftLeft ..).symm

theorem asr32_eq_sshiftRight (v : Word) (k : Nat) : asr32 v k = v.sshiftRight k :=
  congrArg (BitVec.ofInt 32) (Int.shiftRight_eq_div_pow v.toInt k).symm

theorem lsl32_zero (v : Word) : lsl32 v 0 = v := by
  rw [lsl32_eq_shiftLeft, BitVec.shiftLeft_zero]

/-- LSL #16 moves the bottom halfword to the top. -/
theorem hi16_lsl32_sixteen (v : Word) : hi16 (lsl32 v 16) = lo16 v := by
  rw [lsl32_eq_shiftLeft, hi16, lo16]
  refine BitVec.eq_of_getLsbD_eq fun i hi => ?_
  have hlt : 16 + i < 32 := by omega
  simp only [BitVec.getLsbD_extractLsb', BitVec.getLsbD_shiftLeft, hi, hlt]
  simp

/-- ASR #16 moves the top halfword to the bottom. -/
theorem lo16_asr32_sixteen (v : Word) : lo16 (asr32 v 16) = hi16 v := by
  rw [asr32_eq_sshiftRight, hi16, lo16]
  refine BitVec.eq_of_getLsbD_eq fun i hi => ?_
  have hlt : 16 + i < 32 := by omega
  have hge : ¬ 32 ≤ i := by omega
  simp only [BitVec.getLsbD_extractLsb', BitVec.getLsbD_sshiftRight, Nat.zero_add, hi, hlt, hge]
  simp

/-- ASR #32 leaves copies of the sign in the bottom halfword (R251). -/
theorem lo16_asr32_thirtyTwo (v : Word) : lo16 (asr32 v 32) = if v.msb then 0xFFFF#16 else 0x0000#16 := by
  have hcopies : asr32 v 32 = if v.msb then 0xFFFFFFFF else 0 := satOperand_asr_zero v
  rw [hcopies]
  split <;> rfl

theorem pkhtbShift_zero : pkhtbShift 0 = 32 := rfl

theorem pkhtbShift_sixteen : pkhtbShift 16 = 16 := rfl

/-! ### Both packs under a passing condition -/

/-- An instruction that writes `v` to `Rd` and nothing else leaves `v` there, and every flag, where its condition passes. -/
theorem exec_value_passed {i : Instr} {c : Cond} {d : GPR} {s : State} {v : Word} (hc : conditionPassed c s.cpsr = true)
    (h : exec i s = .next (s.retired c { s with regs := s.regs.set d v })) :
    ∃ t, exec i s = .next t ∧ t.cpsr = s.cpsr ∧ t.regs[d] = v := by
  refine ⟨_, h, ?_⟩
  rw [State.retired_passed hc]
  exact ⟨rfl, s.reg_setReg_same d v⟩

section
variable {c : Cond} {s : State} (hc : conditionPassed c s.cpsr = true) (d n m : GPR) {shiftImm : BitVec 5} {half : Half}
include hc

/-- PKHBT under a passing condition, by the halfword that its shift brings to the top (R250). -/
theorem exec_pkhbt_passed (h : hi16 (lsl32 s.regs[m] shiftImm.toNat) = half) :
    ∃ t, exec (.pkhbt c (regNum d) (regNum n) (regNum m) shiftImm) s = .next t ∧ t.cpsr = s.cpsr ∧
      t.regs[d] = half ++ lo16 s.regs[n] :=
  exec_value_passed hc (h ▸ exec_pkhbt ..)

/-- PKHTB under a passing condition, by the halfword that its shift brings to the bottom (R251). -/
theorem exec_pkhtb_passed (h : lo16 (asr32 s.regs[m] (pkhtbShift shiftImm)) = half) :
    ∃ t, exec (.pkhtb c (regNum d) (regNum n) (regNum m) shiftImm) s = .next t ∧ t.cpsr = s.cpsr ∧
      t.regs[d] = hi16 s.regs[n] ++ half :=
  exec_value_passed hc (h ▸ exec_pkhtb ..)

end

/-- Settles O60: what each of the four shifts brings to the halfword that is packed. -/
theorem pkhtbZeroShiftCopiesTheSign : Obligations.PkhtbZeroShiftCopiesTheSign := by
  intro c d n m s hc
  refine ⟨exec_pkhtb_passed hc d n m ?sign, exec_pkhtb_passed hc d n m ?top, exec_pkhbt_passed hc d n m ?unshifted,
    exec_pkhbt_passed hc d n m ?bottom⟩
  case sign => rw [pkhtbShift_zero, lo16_asr32_thirtyTwo]
  case top => rw [pkhtbShift_sixteen, lo16_asr32_sixteen]
  case unshifted => exact congrArg hi16 (lsl32_zero _)
  case bottom => exact hi16_lsl32_sixteen _

end Sys2Proof.Machine

/-! ## How an instruction, a step and a run can end (R300 to R307, R322) -/

namespace Sys2Proof.Machine

/-! ### The three answers of an instruction -/

/-- Well formed: no register field of 15 and no two equal destinations (R53, R203). -/
theorem wellFormed_iff {i : Instr} : i.wellFormed = true ↔ 15 ∉ i.registers ∧ ¬ ∃ d, i.destinations = [d, d] := by
  have hregs : i.noR15 = true ↔ 15 ∉ i.registers := by
    simp only [Instr.noR15, List.all_eq_true, bne_iff_ne]
    exact ⟨fun h h15 => h 15 h15 rfl, fun h r hr hr15 => h (hr15 ▸ hr)⟩
  have hdest : i.distinctDestinations = true ↔ ¬ ∃ d, i.destinations = [d, d] := by
    rcases destinations_cases i with ⟨d, hd⟩ | ⟨-, lo, hi, hd⟩
    · simp [Instr.distinctDestinations, hd]
    · rw [Instr.distinctDestinations, hd]
      exact bne_iff_ne.trans (not_congr ⟨fun h => ⟨lo, by rw [h]⟩, fun ⟨_, h⟩ => by cases h; rfl⟩)
  rw [Instr.wellFormed, Bool.and_eq_true, hregs, hdest]

/-- All that an instruction can answer: a register field of 15 is refused first, then two equal destinations, and any other
instruction completes (R52, R53, R203, R303). -/
theorem exec_cases (i : Instr) (s : State) :
    (15 ∈ i.registers ∧ exec i s = .refused .unpredictableR15) ∨
    ((15 ∉ i.registers ∧ ∃ d, i.destinations = [d, d]) ∧ exec i s = .refused .unpredictableRdHiRdLo) ∨
    (i.wellFormed = true ∧ ∃ t, exec i s = .next t) := by
  by_cases h15 : 15 ∈ i.registers
  · exact .inl ⟨h15, exec_of_fifteen_mem h15⟩
  by_cases hdest : ∃ d, i.destinations = [d, d]
  · obtain ⟨d, hd⟩ := hdest
    exact .inr (.inl ⟨⟨h15, d, hd⟩, exec_of_equal_destinations h15 hd⟩)
  · have hwf := wellFormed_iff.2 ⟨h15, hdest⟩
    exact .inr (.inr ⟨hwf, exec_of_wellFormed hwf s⟩)

theorem exists_exec_eq_next_iff {i : Instr} {s : State} : (∃ t, exec i s = .next t) ↔ i.wellFormed = true := by
  refine ⟨fun ⟨t, ht⟩ => ?_, fun h => exec_of_wellFormed h s⟩
  rcases exec_cases i s with ⟨-, hex⟩ | ⟨-, hex⟩ | ⟨hwf, -⟩
  · simp [hex] at ht
  · simp [hex] at ht
  · exact hwf

/-- No instruction faults (R300, R307). -/
theorem exec_ne_fault (i : Instr) (s : State) (f : Fault) : exec i s ≠ .fault f := by
  rcases exec_cases i s with ⟨-, hex⟩ | ⟨-, hex⟩ | ⟨-, t, hex⟩
  · simp [hex]
  · simp [hex]
  · simp [hex]

/-- Settles O26: an instruction that is not well formed is refused, and none faults. -/
theorem completesExactlyWhenWellFormed : Obligations.CompletesExactlyWhenWellFormed :=
  fun i s => ⟨exists_exec_eq_next_iff.symm, exec_ne_fault i s⟩

/-- The two refusals of an instruction, each in its case (R53, R203). -/
theorem exec_eq_refused {i : Instr} {s : State} {r : Refusal} :
    exec i s = .refused r ↔ (15 ∈ i.registers ∧ .unpredictableR15 = r) ∨
      ((15 ∉ i.registers ∧ ∃ d, i.destinations = [d, d]) ∧ .unpredictableRdHiRdLo = r) := by
  rcases exec_cases i s with ⟨h15, hex⟩ | ⟨⟨h15, hdest⟩, hex⟩ | ⟨hwf, t, hex⟩
  · simp only [hex, h15, Host.Outcome.refused.injEq, true_and, not_true_eq_false, false_and, or_false]
  · simp only [hex, h15, hdest, Host.Outcome.refused.injEq, true_and, not_false_eq_true, false_and, false_or]
  · obtain ⟨h15, hdest⟩ := wellFormed_iff.1 hwf
    simp only [hex, h15, hdest, reduceCtorEq, false_and, and_false, or_false]

/-! ### The refusals and the fault of a step -/

/-- A step is refused short of `END_PC`: without a word, by the decoder, or by the instruction (R303). -/
theorem step_eq_refused {s : State} {r : Refusal} :
    step s = .refused r ↔ s.runOver = false ∧
      ((s.fetchWord = none ∧ r = .fetchOutOfProgram) ∨ ∃ w, s.fetchWord = some w ∧
        ((∃ e, decodeFor s.cfg w = .error e ∧ r = refusalOf e) ∨
          ∃ i, decodeFor s.cfg w = .ok i ∧ exec i s = .refused r)) := by
  unfold step
  cases hr : s.runOver with
  | true => simp
  | false =>
    cases hf : s.fetchWord with
    | none => simp [eq_comm]
    | some w =>
      cases hd : decodeFor s.cfg w with
      | error e => simp [hd, eq_comm]
      | ok i => simp [hd]

/-- A step faults at `END_PC` alone (R300, R322). -/
theorem runOver_of_step_eq_fault {s : State} {f : Fault} (h : step s = .fault f) : s.runOver = true := by
  by_contra hr
  cases hf : s.fetchWord with
  | none => simp [step, hr, hf] at h
  | some w =>
    cases hd : decodeFor s.cfg w with
    | error e => simp [step, hr, hf, hd] at h
    | ok i => exact exec_ne_fault i s f (by simpa [step, hr, hf, hd] using h)

/-- Short of `END_PC` a step completes or is refused (R300, R322). -/
theorem step_next_or_refused {s : State} (hpc : s.pc.toNat ≠ s.endPc) :
    (∃ t, step s = .next t) ∨ ∃ r, step s = .refused r := by
  cases h : step s with
  | next t => exact .inl ⟨t, rfl⟩
  | fault f => exact absurd (State.runOver_iff.1 (runOver_of_step_eq_fault h)) hpc
  | refused r => exact .inr ⟨r, rfl⟩

/-! ### The end of a run -/

/-- A step of a run is one word on in the text (R23, R42). -/
theorem State.InRun.step_pc {s t : State} (hs : s.InRun) (h : step s = .next t) :
    t.InRun ∧ t.pc.toNat = s.pc.toNat + 4 ∧ t.endPc = s.endPc := by
  obtain ⟨-, w, -, hfetch, -, -⟩ := step_eq_next.1 h
  obtain ⟨-, hlt, -⟩ := fetchAdmitted_of_fetchWord hfetch
  obtain ⟨hpc, hmem, hentry, -⟩ := step_advances_and_keeps h
  obtain ⟨ht, -⟩ := inRunIsKept s t hs h
  obtain ⟨-, -, -, hend, -⟩ := hs
  refine ⟨ht, ?_, State.endPc_congr hmem hentry⟩
  rw [hpc, BitVec.toNat_add]
  exact Nat.mod_eq_of_lt (by change s.pc.toNat + 4 < 2 ^ 32; omega)

/-- `k` steps of a run are `k` words on in the text. -/
theorem State.InRun.runSteps_pc {k : Nat} {s t : State} (hs : s.InRun) (h : runSteps k s = .next t) :
    t.InRun ∧ t.pc.toNat = s.pc.toNat + 4 * k ∧ t.endPc = s.endPc := by
  induction k generalizing s with
  | zero => cases h; exact ⟨hs, rfl, rfl⟩
  | succ k ih =>
    obtain ⟨u, hu, hrun⟩ := (run_succ_eq_next Sys2Proof.core).1 h
    obtain ⟨hu', hpc, hend⟩ := hs.step_pc hu
    obtain ⟨ht, hpc', hend'⟩ := ih hu' hrun
    exact ⟨ht, by omega, hend'.trans hend⟩

/-- The words left of a run end at `END_PC`. -/
theorem State.InRun.pc_add_remaining {s : State} (h : s.InRun) : s.pc.toNat + 4 * s.remaining = s.endPc := by
  have hend := h.endPc_eq
  obtain ⟨hentry4, hlen, -, -, hpc4, -, hhigh⟩ := h
  unfold State.remaining
  omega

/-- The step after `k` completed ones is refused. -/
def State.RefusedAt (s : State) (k : Nat) : Prop := ∃ t r, runSteps k s = .next t ∧ step t = .refused r

/-- What is refused after a step of the run is refused one word later in the run. -/
theorem State.RefusedAt.succ {s u : State} {k : Nat} (hu : step s = .next u) (h : u.RefusedAt k) : s.RefusedAt (k + 1) := by
  obtain ⟨t, r, hrun, href⟩ := h
  exact ⟨t, r, (run_succ_eq_next Sys2Proof.core).2 ⟨u, hu, hrun⟩, href⟩

/-- As many steps as there are words left complete, unless one of them is refused (R322). -/
theorem State.InRun.completes_or_refused {k : Nat} {s : State} (hs : s.InRun) (hk : k ≤ s.remaining) :
    (∃ t, runSteps k s = .next t) ∨ ∃ j < k, s.RefusedAt j := by
  induction k generalizing s with
  | zero => exact .inl ⟨s, rfl⟩
  | succ k ih =>
    have hleft := hs.pc_add_remaining
    rcases step_next_or_refused (s := s) (by omega) with ⟨u, hu⟩ | ⟨r, hr⟩
    · obtain ⟨hu', hpc, hend⟩ := hs.step_pc hu
      have hleft' := hu'.pc_add_remaining
      rcases ih hu' (by omega) with ⟨t, ht⟩ | ⟨j, hj, href⟩
      · exact .inl ⟨t, (run_succ_eq_next Sys2Proof.core).2 ⟨u, hu, ht⟩⟩
      · exact .inr ⟨j + 1, Nat.succ_lt_succ hj, href.succ hu⟩
    · exact .inr ⟨0, Nat.succ_pos k, s, r, rfl, hr⟩

/-- Settles O44: each step is one word on, so that with none refused the words left end at `END_PC`, and no sooner. -/
theorem runEndsAtEndPcOrIsRefused : Obligations.RunEndsAtEndPcOrIsRefused := by
  intro s hs
  have hleft := hs.pc_add_remaining
  by_cases href : ∃ k < s.remaining, s.RefusedAt k
  · obtain ⟨k, hk, t, r, hrun, hr⟩ := href
    obtain ⟨-, hpc, -⟩ := hs.runSteps_pc hrun
    exact .inl ⟨k, t, r, hk, hrun, hpc, hr⟩
  · have hcompletes {k : Nat} (hk : k ≤ s.remaining) :
        ∃ t, runSteps k s = .next t ∧ t.pc.toNat = s.pc.toNat + 4 * k := by
      rcases hs.completes_or_refused hk with ⟨t, ht⟩ | ⟨j, hj, hrefused⟩
      · obtain ⟨-, hpc, -⟩ := hs.runSteps_pc ht
        exact ⟨t, ht, hpc⟩
      · exact absurd ⟨j, hj.trans_le hk, hrefused⟩ href
    refine .inr ⟨?_, fun k hk => ?_⟩
    · obtain ⟨t, ht, hpc⟩ := hcompletes le_rfl
      exact ⟨t, ht, hpc.trans hleft⟩
    · obtain ⟨u, hu, hpc⟩ := hcompletes hk.le
      exact ⟨u, hu, hpc, by omega⟩

/-! ### The reason of a refusal -/

/-- The decoder as a core of version 6 or later has it (R301). -/
theorem decodeFor_of_le {cfg : Config} (h : 6 ≤ cfg.archVersion) (w : Word) : decodeFor cfg w = decode w := by
  unfold decodeFor
  cases decode w with
  | error e => rfl
  | ok i => exact if_pos h

/-- An older core decodes no word (R301, R321): the condition field is still tested first. -/
theorem decodeFor_of_lt {cfg : Config} (h : cfg.archVersion < 6) (w : Word) :
    decodeFor cfg w = .error (if nibbleAt w 28 = 15 then .unconditionalSpace else .notInOpcodeTable) := by
  rcases decode_cases w with ⟨h15, hd⟩ | ⟨h15, -, hd⟩ | ⟨c, r, hc, -, -, hd⟩
  · simp only [decodeFor, hd, if_pos h15]
  · simp only [decodeFor, hd, if_neg h15]
  · have h15 : nibbleAt w 28 ≠ 15 := hc ▸ c.bits_ne_fifteen
    simp only [decodeFor, hd, if_neg h15, if_neg (Nat.not_le.2 h)]

/-- A fetched word is not at `END_PC`, so that its step is refused by the decoder or by the instruction (R303). -/
theorem step_eq_refused_of_fetchWord {s : State} {w : Word} (hf : s.fetchWord = some w) {r : Refusal} :
    step s = .refused r ↔ (∃ e, decodeFor s.cfg w = .error e ∧ r = refusalOf e) ∨
      ∃ i, decodeFor s.cfg w = .ok i ∧ exec i s = .refused r := by
  obtain ⟨-, hlt, -⟩ := fetchAdmitted_of_fetchWord hf
  simp [step_eq_refused, State.runOver_eq_false_iff.2 hlt.ne, hf]

/-- Settles O28: the decoder of an older core gives one of its two rejections. -/
theorem olderCoresRefuseEveryWord : Obligations.OlderCoresRefuseEveryWord := by
  intro s w hf hv
  have hstep := (step_eq_refused_of_fetchWord hf).2 (.inl ⟨_, decodeFor_of_lt hv w, rfl⟩)
  change (nibbleAt w 28 ≠ 15 → _) ∧ (nibbleAt w 28 = 15 → _)
  exact ⟨fun h15 => by rw [hstep, if_neg h15, refusalOf], fun h15 => by rw [hstep, if_pos h15, refusalOf]⟩

/-- The two refusals of the decoder, each in its case (R54, R57). -/
theorem eq_refusalOf_iff {e : DecodeReject} {r : Refusal} :
    r = refusalOf e ↔ (e = .unconditionalSpace ∧ .unconditionalSpace = r) ∨
      (e = .notInOpcodeTable ∧ .notInOpcodeTable = r) := by
  cases e with
  | unconditionalSpace | notInOpcodeTable => simp [refusalOf, eq_comm]

/-- Settles O27: the decoder's rejections are those of its two cases, and the instruction's refusals those of the other two. -/
theorem refusalReasons : Obligations.RefusalReasons := by
  refine fun s => ⟨?fetch, fun w hf hv => ?word⟩
  case fetch =>
    rw [← State.runOver_eq_false_iff, step_eq_refused]
    simp [eq_refusalOf_iff, exec_eq_refused]
  case word =>
    obtain ⟨hspace, hunlisted⟩ := decodeRejectsExactlyUnlistedWords w
    rw [← hspace, ← hunlisted]
    simp [step_eq_refused_of_fetchWord hf, decodeFor_of_le hv, exec_eq_refused, eq_refusalOf_iff]

end Sys2Proof.Machine

/-! ## The reversals (R260 to R262) -/

namespace Sys2Proof.Machine

/-! ### The result, encoding and print of the three -/

section
variable (c : Cond) (d m : GPR) (s : State)

/-- What REV answers with registers in its fields: `Rd` and `pc` alone change (R260). -/
theorem exec_rev : exec (.rev c (regNum d) (regNum m)) s =
    .next (s.retired c { s with regs := s.regs.set d (reverseWord s.regs[m]) }) :=
  exec_of_unary_value (by unfold exec; exact rfl) rfl

/-- What REV16 answers with registers in its fields: `Rd` and `pc` alone change (R261). -/
theorem exec_rev16 : exec (.rev16 c (regNum d) (regNum m)) s =
    .next (s.retired c { s with regs := s.regs.set d (reverseHalves s.regs[m]) }) :=
  exec_of_unary_value (by unfold exec; exact rfl) rfl

/-- What REVSH answers with registers in its fields: `Rd` and `pc` alone change (R262). -/
theorem exec_revsh : exec (.revsh c (regNum d) (regNum m)) s =
    .next (s.retired c { s with regs := s.regs.set d ((reverseBottom s.regs[m]).signExtend 32) }) :=
  exec_of_unary_value (by unfold exec; exact rfl) rfl

end

/-- Settles O17: each of the three is a `unary` that writes its reversed bytes and no flag, its row has no constraint, and its
print is its registers. -/
theorem reverseBytesResults : Obligations.ReverseBytesResults := by
  refine ⟨fun c d m s => ⟨exec_rev .., exec_rev16 .., exec_revsh ..⟩,
    fun w c hc => ⟨?decodeRev, ?decodeRev16, ?decodeRevsh⟩, fun c rd rm => ⟨?_, ?_, ?_⟩⟩
  case decodeRev => exact decode_of_row (m := .rev) hc (by decide)
  case decodeRev16 => exact decode_of_row (m := .rev16) hc (by decide)
  case decodeRevsh => exact decode_of_row (m := .revsh) hc (by decide)
  all_goals exact printInstr_registers_only rfl rfl

/-! ### The bytes of the reversed words -/

theorem byteAt_reverseWord (v : Word) {i : Nat} (hi : i < 4) : byteAt (reverseWord v) i = byteAt v (3 - i) := by
  simpa only [reverseWord] using byteAt_bytes (fun j => byteAt v (3 - j)) hi

/-- REV16 exchanges the bytes whose numbers differ in the lowest bit (R261). -/
theorem byteAt_reverseHalves (v : Word) {i : Nat} (hi : i < 4) : byteAt (reverseHalves v) i = byteAt v (i ^^^ 1) := by
  simpa only [reverseHalves, Nat.reduceXor] using byteAt_bytes (fun j => byteAt v (j ^^^ 1)) hi

/-- A rotation by 16 moves each byte by two. -/
theorem byteAt_ror32_sixteen (v : Word) {i : Nat} (hi : i < 4) : byteAt (ror32 v 16) i = byteAt v ((i + 2) % 4) := by
  refine BitVec.eq_of_getLsbD_eq fun j hj => ?_
  simp only [byteAt, ror32, BitVec.getLsbD_extractLsb', BitVec.getLsbD_rotateRight, Bool.cond_decide]
  split
  · rw [show 16 % 32 + (8 * i + j) = 8 * ((i + 2) % 4) + j by omega]
  · rw [show 8 * i + j - (32 - 16 % 32) = 8 * ((i + 2) % 4) + j by omega, decide_eq_true (by omega : 8 * i + j < 32),
      Bool.true_and]

theorem reverseWord_involutive : Function.Involutive reverseWord := fun v => by
  refine eq_iff_byteAt.2 fun i hi => ?_
  rw [byteAt_reverseWord _ hi, byteAt_reverseWord _ (by omega), show 3 - (3 - i) = i by omega]

theorem reverseHalves_involutive : Function.Involutive reverseHalves := fun v => by
  refine eq_iff_byteAt.2 fun i hi => ?_
  have hpartner : i ^^^ 1 < 4 := Nat.xor_lt_two_pow (n := 2) hi (by decide)
  rw [byteAt_reverseHalves _ hi, byteAt_reverseHalves _ hpartner, Nat.xor_xor_cancel_right]

/-- REV16 is REV with its halfwords exchanged (R260, R261). -/
theorem ror32_reverseWord (v : Word) : ror32 (reverseWord v) 16 = reverseHalves v := by
  refine eq_iff_byteAt.2 fun i hi => ?_
  rw [byteAt_ror32_sixteen _ hi, byteAt_reverseWord _ (Nat.mod_lt _ (by decide)), byteAt_reverseHalves _ hi]
  interval_cases i <;> rfl

/-! ### Two reversals under a passing condition -/

/-- `i` writes `f` of its operand register and no flag, in every state whose condition passes. -/
def WritesValue (c : Cond) (i : GPR → GPR → Instr) (f : Word → Word) : Prop :=
  ∀ (d m : GPR) (s : State), conditionPassed c s.cpsr = true →
    ∃ t, exec (i d m) s = .next t ∧ t.cpsr = s.cpsr ∧ t.regs[d] = f s.regs[m]

theorem writesValue_rev (c : Cond) : WritesValue c (fun d m => .rev c (regNum d) (regNum m)) reverseWord :=
  fun _ _ _ hc => exec_value_passed hc (exec_rev ..)

theorem writesValue_rev16 (c : Cond) : WritesValue c (fun d m => .rev16 c (regNum d) (regNum m)) reverseHalves :=
  fun _ _ _ hc => exec_value_passed hc (exec_rev16 ..)

/-- An involution done twice, through any register, gives the operand back. -/
theorem WritesValue.twice {c : Cond} {i : GPR → GPR → Instr} {f : Word → Word} (hi : WritesValue c i f)
    (hf : Function.Involutive f) (d e m : GPR) {s : State} (hc : conditionPassed c s.cpsr = true) :
    ∃ t u, exec (i d m) s = .next t ∧ exec (i e d) t = .next u ∧ u.regs[e] = s.regs[m] := by
  obtain ⟨t, ht, hcpsr, hd⟩ := hi d m s hc
  obtain ⟨u, hu, -, he⟩ := hi e d t (hcpsr ▸ hc)
  exact ⟨t, u, ht, hu, by rw [he, hd, hf]⟩

/-- Settles O59: both reversals are involutions, and their results differ by a rotation. -/
theorem reversingTwiceRestores : Obligations.ReversingTwiceRestores := by
  intro c d e m s hc
  refine ⟨(writesValue_rev c).twice reverseWord_involutive d e m hc,
    (writesValue_rev16 c).twice reverseHalves_involutive d e m hc, ?_⟩
  obtain ⟨t, ht, -, hrev⟩ := writesValue_rev c d m s hc
  obtain ⟨u, hu, -, hrev16⟩ := writesValue_rev16 c d m s hc
  exact ⟨t, u, ht, hu, by rw [hrev16, hrev, ror32_reverseWord]⟩

end Sys2Proof.Machine
